-- ==== Sys2Proof/Word.lean ====
section
/-! DEFINITION. The word types of the DX8 and the two sparse containers of the state: memory (addresses strictly
rising, no byte equal to the byte an unlisted address reads as) and keyed tables (keys strictly rising). -/

namespace Sys2Proof

/-- A byte of memory (R5). -/
abbrev Byte := BitVec 8

/-- One 16-bit field of a station record (R76). -/
abbrev Half := BitVec 16

/-- The value of a narrow token, a tag, a command word (R27, R64). -/
abbrev Word := BitVec 32

/-- A 64-bit address, base slot or register (R205, R214). -/
abbrev Dword := BitVec 64

/-- The value of a wide token (R27). -/
abbrev Wide := BitVec 1024

/-- Sparse bytes by address: the canonical form is `Bytes.wf`. -/
abbrev Bytes := List (Nat × BitVec 8)

/-- What an unlisted address reads as: bring-up writes zero to every byte of HBM4, vault, L2 and L1 (R445 step 3). -/
abbrev unlistedByte : Byte := 0

/-- The canonical form of sparse bytes: addresses strictly rising, no entry equal to the unlisted byte. -/
def Bytes.wf : Bytes → Bool
  | [] => true
  | [(_, v)] => v != unlistedByte
  | (a, v) :: (b, w) :: rest => v != unlistedByte && decide (a < b) && Bytes.wf ((b, w) :: rest)

/-- A table by number: the canonical form is keys strictly rising. -/
abbrev Table (α : Type) := List (Nat × α)

/-- The canonical form of a table. -/
def Table.wf {α : Type} : Table α → Bool
  | [] => true
  | [_] => true
  | (a, _) :: (b, w) :: rest => decide (a < b) && Table.wf ((b, w) :: rest)

/-- The entry of a key. -/
def Table.get? {α : Type} : Table α → Nat → Option α
  | [], _ => none
  | (k, v) :: rest, n => if k = n then some v else Table.get? rest n

/-- The entry of a key, or the given value where the table lists none. -/
def Table.getD {α : Type} (t : Table α) (n : Nat) (d : α) : α := (t.get? n).getD d

/-- The table with one entry set, keys kept in rising order. -/
def Table.set {α : Type} : Table α → Nat → α → Table α
  | [], n, v => [(n, v)]
  | (k, w) :: rest, n, v =>
    if n < k then (n, v) :: (k, w) :: rest
    else if n = k then (n, v) :: rest
    else (k, w) :: Table.set rest n v

/-- The table without one key. -/
def Table.erase {α : Type} (t : Table α) (n : Nat) : Table α := t.filter (fun e => e.1 != n)

end Sys2Proof
end

