-- ==== Sys2Proof/Machine/Flags.lean ====
section
/-! DEFINITION. Lanes of a narrow value (R77, R130, R154), the carry and borrow of ADDC and SUBB (R180), the relations of
the integer and floating compares (R187, R198), the result codes of division (R133) and saturation to a lane (R129, R194).
The DX8 has no flag register: what another machine keeps in flags is a value on a target. -/

namespace Sys2Proof

/-! ## Lane types -/

/-- A decoded type nibble: lane width, packed, natural (R77). -/
structure LaneType where
  w       : Nat
  packed  : Bool
  natural : Bool
  deriving DecidableEq, Repr

/-- The type of a nibble (R77). -/
def laneType (n : BitVec 4) : LaneType :=
  { w := if n.toNat / 4 = 0 then 32 else if n.toNat / 4 = 1 then 16 else 8, packed := n.getLsbD 0,
    natural := n.getLsbD 1 }

/-- The number of lanes n of R154. -/
def LaneType.lanes (t : LaneType) : Nat := if t.packed then 32 / t.w else 1

/-- lane(x, i) of R154 as bits. -/
def lane (w : Nat) (x : Word) (i : Nat) : Nat := x.toNat / 2 ^ (w * i) % 2 ^ w

/-- The signed reading of w bits (R129). -/
def toSigned (w v : Nat) : Int := if v < 2 ^ (w - 1) then (v : Int) else (v : Int) - 2 ^ w

/-- The low w bits of an exact result (R131). -/
def wrapBits (w : Nat) (z : Int) : Nat := (z % 2 ^ w).toNat

/-- A lane read as its type says. -/
def LaneType.read (t : LaneType) (v : Nat) : Int := if t.natural then v else toSigned t.w v

/-- ext(v) of R154: a w-bit result in 32 bits, sign-extended for a signed type. -/
def LaneType.ext (t : LaneType) (v : Nat) : Word :=
  if t.natural then BitVec.ofNat 32 (v % 2 ^ t.w) else BitVec.ofInt 32 (toSigned t.w (v % 2 ^ t.w))

/-- The lanes of a packed result, lane 0 lowest (R130). -/
def joinLanes (w : Nat) : List Nat → Nat
  | [] => 0
  | v :: rest => v % 2 ^ w + 2 ^ w * joinLanes w rest

/-- A two-operand lane operation (R179): each lane apart, an unpacked result extended. -/
def lanewise2 (t : LaneType) (f : Nat → Nat → Nat) (a b : Word) : Word :=
  if t.packed then
    BitVec.ofNat 32 (joinLanes t.w ((List.range t.lanes).map (fun i => f (lane t.w a i) (lane t.w b i))))
  else t.ext (f (lane t.w a 0) (lane t.w b 0))

/-- A one-operand lane operation. -/
def lanewise1 (t : LaneType) (f : Nat → Nat) (a : Word) : Word := lanewise2 t (fun x _ => f x) a 0

/-! ## Carry and borrow (R180) -/

/-- The full sum of ADDC on natural w-bit operands. -/
def addCarry (w x y cin : Nat) : Nat × Nat := ((x + y + cin) % 2 ^ w, (x + y + cin) / 2 ^ w)

/-- The difference and borrow of SUBB on natural w-bit operands. -/
def subBorrow (w x y cin : Nat) : Nat × Nat :=
  (wrapBits w ((x : Int) - y - cin), if x < y + cin then 1 else 0)

/-! ## Relations -/

/-- A truth value as a lane. -/
def ofTruth (b : Bool) : Nat := if b then 1 else 0

/-- x < y and x ≤ y with w-bit lanes read as signed (R187). -/
def lessSigned (w x y : Nat) : Bool := decide (toSigned w x < toSigned w y)

def lessEqSigned (w x y : Nat) : Bool := decide (toSigned w x ≤ toSigned w y)

/-- The one-hot relation codes of FCMP and VCMP (R198). -/
def relationCode (unordered less equal : Bool) : Nat :=
  if unordered then 8 else if less then 1 else if equal then 2 else 4

/-! ## Division (R133) -/

/-- Quotient and remainder of natural operands. -/
def divNatural (w x y : Nat) : Nat × Nat := if y = 0 then (2 ^ w - 1, x) else (x / y, x % y)

/-- Quotient and remainder of signed operands, truncating, with the borderline cases of R133. -/
def divSigned (w x y : Nat) : Nat × Nat :=
  let a := toSigned w x
  let b := toSigned w y
  if b = 0 then ((if 0 ≤ a then 2 ^ w - 1 else 1), x)
  else (wrapBits w (a.tdiv b), wrapBits w (a.tmod b))

/-! ## Saturation (R129) -/

/-- An exact value clamped to the range of a type. -/
def saturate (natural : Bool) (w : Nat) (z : Int) : Int :=
  if natural then max 0 (min z (2 ^ w - 1)) else max (-(2 ^ (w - 1))) (min z (2 ^ (w - 1) - 1))

/-! ## Bit counting (R185) -/

/-- The number of bits of a natural number: 0 for 0. -/
def bitLength : Nat → Nat → Nat
  | 0, _ => 0
  | fuel + 1, n => if n = 0 then 0 else 1 + bitLength fuel (n / 2)

/-- Leading zeros within w bits. -/
def leadingZeros (w x : Nat) : Nat := w - bitLength w x

/-- Trailing zeros within w bits; w for 0. -/
def trailingZeros : Nat → Nat → Nat
  | 0, _ => 0
  | w + 1, x => if x % 2 = 1 then 0 else 1 + trailingZeros w (x / 2)

/-- The number of one bits. -/
def onesCount : Nat → Nat → Nat
  | 0, _ => 0
  | w + 1, x => x % 2 + onesCount w (x / 2)

/-- The low w bits reversed: bit j moves to bit w−1−j. -/
def reverseBits : Nat → Nat → Nat
  | 0, _ => 0
  | w + 1, x => x % 2 * 2 ^ w + reverseBits w (x / 2)

end Sys2Proof
end

