-- ==== Sys2Proof/Config.lean ====
section
/-! DEFINITION. What an implementation of the DX8 fixes and the manual does not: the free values. None has a body, so no
proof can rest on what one is. Each is applied to `State.ticks`, a plain counter that every step advances, or to
the operands it depends on (assumption log 1 and 2). -/

namespace Sys2Proof.Config

/-- Which of the due activities goes next (no order between arcs, replies or agents: R35, R217, R457). -/
opaque pick : Nat → Nat

/-- Fabric cycles that pass during one step (timing is not architectural: R7, R19, R23). -/
opaque cycles : Nat → Nat

/-- Reference counts that pass during one step (R209). -/
opaque refCounts : Nat → Nat

/-- The CTX value the dispatcher assigns among those that are free (R45). -/
opaque ctxChoice : Nat → Nat

/-- The handle a load gives and the tag the loader assigns, among the free ones (R112, R128, R400). -/
opaque handleChoice : Nat → Nat

/-- Where data allocation places a section (R127): a 64 KiB page number of local HBM4. -/
opaque placement : Nat → Nat

/-- The victim among the candidates for a replacement that is not architectural (R319, R321, R328, R335). -/
opaque victim : Nat → Nat

/-- The edge a deadlock probe takes (R59). -/
opaque probeEdge : Nat → Nat

/-- The vendor's fused digest of the firmware key (R447), as the SHA-512 value. -/
opaque fusedDigest : BitVec 512

/-- The firmware image with which the part ships (R447); its SECCNT is the fused counter at shipment (R446). -/
opaque shippedImage : List Byte

/-- The secret seed of the device attestation key (R452). -/
opaque attestSeed : BitVec 256

/-- The device serial number (R452). -/
opaque serial : BitVec 128

/-- The SMBus address strap (R454): true where the strap ball is held high at power-up. -/
opaque smbusStrap : Bool

/-- The value an access through conflicting uncached and cacheable mappings reads (R320). -/
opaque mixedMapping : Nat → Byte

/-- What a save writes into its area (R422: the contents are not architectural): bytes at offsets of the area. -/
opaque saveImage : Nat → List (Nat × Byte)

/-- The PWAITs that the waiting list of a home slice holds (R250). -/
opaque phaserWaiters : Nat

/-- A word the manual states no value for, by counter. -/
opaque freeWord : Nat → Word

end Sys2Proof.Config
end

