-- ==== Sys2Proof/Syntax.lean ====
section
/-! DEFINITION. The syntax of the DX8: one constructor of `Instr` for each row of the table of operations and events.
A station instruction carries its decoded record (R76), a control token its fields (R100), a command, packet or register
write what its encoding holds; a step that the manual gives no encoding carries nothing. -/

namespace Sys2Proof

/-- Element classes that hold an opcode (R103). -/
inductive Class where
  | pe | ve | mem | conv | seqr | join | chan | hostIn | hostOut
  deriving DecidableEq, Repr

/-- The matching action of an operand port (R30). On ports C and P, `immediate` is the code for "unused" (R88). -/
inductive Action where
  | consume | sticky | pull | immediate
  deriving DecidableEq, Repr

/-- Operand ports (R81). -/
inductive Port where
  | a | b | c | p
  deriving DecidableEq, Repr

/-- A target field (R81). -/
structure Target where
  valid : Bool
  port  : Port
  addr  : BitVec 13
  deriving DecidableEq, Repr

/-- The configuration of port A or B (R85): action, FE, and the 13 low bits, which are queue and selector, or the producer
station of a pull port. -/
structure PortCfg where
  act : Action
  fe  : Bool
  low : BitVec 13
  deriving DecidableEq, Repr

/-- The configuration of port C or P (R88). -/
structure SidePort where
  act   : Action
  queue : BitVec 2
  deriving DecidableEq, Repr

/-- A decoded station record (R76) without its opcode, which the constructor of `Instr` names. -/
structure Rec where
  fmt   : BitVec 4
  flags : BitVec 4
  t0    : Target
  t1    : Target
  a     : PortCfg
  b     : PortCfg
  c     : SidePort
  p     : SidePort
  block : BitVec 8
  f6    : Half
  f7    : Half
  deriving DecidableEq, Repr

/-- The eight raw fields of a record (R76, R93, R94). -/
structure RawRecord where
  f0 : Half := 0
  f1 : Half := 0
  f2 : Half := 0
  f3 : Half := 0
  f4 : Half := 0
  f5 : Half := 0
  f6 : Half := 0
  f7 : Half := 0
  deriving DecidableEq, Repr

/-- The fields of an MO control token (R100) without MOPC. -/
structure Ctl where
  zidx  : BitVec 6
  atile : BitVec 6
  btile : BitVec 6
  acc   : Bool
  tra   : Bool
  trb   : Bool
  sat   : Bool
  bstr  : Bool
  scl   : BitVec 3
  deriving DecidableEq, Repr

/-- The value of a token (R27). -/
inductive Value where
  | narrow (v : Word)
  | wide (v : Wide)
  deriving DecidableEq, Repr

/-- What a token on an arc is: data, a request of a pull port (R33), a purge request with the acknowledgement's target (R171), or
data that an MPAIR sent, with its station and offsets (R310). -/
inductive TokenKind where
  | data
  | request
  | purge (ack : Target)
  | paired (station : Nat) (offsets : BitVec 8)
  deriving DecidableEq, Repr

/-- A token on its way to a port of a station of a cluster (R27, R81); one that carries a memory reply or a completion has the number
of its request, whose reply counts as outstanding until it is consumed (R61, R217). -/
structure Token where
  cluster : Nat
  station : Nat
  port    : Port
  kind    : TokenKind
  value   : Value
  tag     : Word
  reply   : Option Nat := none
  deriving DecidableEq, Repr

/-- A deadlock probe (R59): origin, stations passed, hops. The tag of its event is that of the edge on which its origin waits (R60). -/
structure Probe where
  cluster : Nat
  origin  : Nat
  list    : List Nat
  hops    : Nat
  deriving DecidableEq, Repr

/-- The ends of a coherence message (R330, R333): an L1, a die's point, a line's home (the point of its home die), the
host's caches. -/
inductive Node where
  | l1 (c : Nat)
  | die (d : Nat)
  | home (d : Nat)
  | host
  deriving DecidableEq, Repr

/-- Line states: MESI inside a die, MOESI between dies (R330, R333). -/
inductive LineState where
  | m | o | e | s | i
  deriving DecidableEq, Repr

/-- A coherence message (R330). `requester` is the node a forward's data go to; `data` is the line where one is carried. -/
structure Msg where
  src       : Node
  dst       : Node
  line      : Nat
  requester : Node
  state     : LineState
  data      : Option Wide
  deriving DecidableEq, Repr

/-- A host request to a device line (R431): a read, or a write of bytes. -/
structure HostReq where
  write : Bool
  addr  : Nat
  data  : List Byte
  deriving DecidableEq, Repr

/-- A join part travelling to a cluster of its group (R252, R253). -/
structure JoinPart where
  src     : Nat
  dst     : Nat
  station : Nat
  tag     : Word
  group   : BitVec 10
  count   : BitVec 16
  value   : Word
  /-- Word that the round is bad, after the source's own part of it or before (R253). -/
  bad     : Bool := false
  after   : Bool := false
  deriving DecidableEq, Repr

/-- An ingress record (R433): where it goes, its value, WAVE and SUB. -/
structure IngressRec where
  cluster : Nat
  node    : Nat
  value   : Word
  wtag    : Word
  deriving DecidableEq, Repr

/-- An element of a remote copy that arrives over Span (R437). -/
structure RemoteElement where
  va      : Nat
  data    : List Byte
  channel : Option (BitVec 16)
  deriving DecidableEq, Repr

/-- What an atomic, quarry or phaser operation of another device carries: its opcode, format and flag fields, and the values of its
ports B and C (R237 to R250). -/
structure FarOp where
  op    : Nat
  fmt   : BitVec 4
  flags : BitVec 4
  b     : Word
  c     : Word
  /-- The device and the memory port that sent it, and its request id there (R241). -/
  device : Nat := 0
  port  : Nat := 0
  rid   : BitVec 16 := 0
  deriving DecidableEq, Repr

/-- An access of another device that arrives over Span (R337): a read of `size` bytes, a write of `data`, or an operation that is
performed at its home. -/
structure SpanAccess where
  write : Bool
  addr  : Nat
  data  : List Byte
  size  : Nat
  far   : Option FarOp := none
  deriving DecidableEq, Repr

/-- One sample of the tollhouse's sensors (R444): power in mW, and the junctions in units of 0.125 °C. -/
structure PowerReading where
  power    : Word
  junction : List (BitVec 16)
  deriving DecidableEq, Repr

/-- A soft error that no access met (R329, R376): reference unit numbers of the log (R453), and the counter line or slab
it lost, if any: the line, and the cluster whose slab entry of it was struck. -/
structure SoftError where
  die  : Byte
  unit : Byte
  kind : Byte
  line : Option Nat
  slab : Option Nat := none
  deriving DecidableEq, Repr

/-- A LAUNCH packet (R401). -/
structure LaunchPkt where
  spec   : Bool
  ext    : Bool
  notify : Bool
  prio   : BitVec 3
  handle : Word
  rect   : Half
  classes : Word
  bind0  : Dword
  extptr : Dword
  arg0   : Word
  arg1   : Word
  arg2   : Word
  arg3   : Word
  arg4   : Word
  arg5   : Word
  arg6   : Word
  deriving DecidableEq, Repr

/-- One constructor for each row of the table of operations and events; each is named after its row and cites the rule.
An instruction with an encoding carries what the encoding holds. A step that the manual gives no encoding carries nothing:
what it acts on stands in hand in the state (`Machine.Site`). -/
inductive Instr where
  /-- ILLEGAL (R102) -/
  | illegal (r : Rec)
  /-- FAN (R161) -/
  | fan (r : Rec)
  /-- CONST (R162) -/
  | const (r : Rec)
  /-- STEER (R163) -/
  | steer (r : Rec)
  /-- SEL (R164) -/
  | sel (r : Rec)
  /-- MERGE (R165) -/
  | merge (r : Rec)
  /-- WADV (R169) -/
  | wadv (r : Rec)
  /-- EXIT (R170) -/
  | exit (r : Rec)
  /-- GATE (R166) -/
  | gate (r : Rec)
  /-- SINK (R167) -/
  | sink (r : Rec)
  /-- PURGE (R171) -/
  | purge (r : Rec)
  /-- COORD (R173) -/
  | coord (r : Rec)
  /-- TAGRD (R174) -/
  | tagrd (r : Rec)
  /-- TAGWR (R175) -/
  | tagwr (r : Rec)
  /-- CALL (R176) -/
  | call (r : Rec)
  /-- RET (R177) -/
  | ret (r : Rec)
  /-- ADD (R179) -/
  | add (r : Rec)
  /-- SUB (R179) -/
  | sub (r : Rec)
  /-- ADDC (R180) -/
  | addc (r : Rec)
  /-- SUBB (R180) -/
  | subb (r : Rec)
  /-- MUL (R179) -/
  | mul (r : Rec)
  /-- MULHS (R179) -/
  | mulhs (r : Rec)
  /-- MULHN (R179) -/
  | mulhn (r : Rec)
  /-- DIVS (R181) -/
  | divs (r : Rec)
  /-- DIVN (R181) -/
  | divn (r : Rec)
  /-- REMS (R181) -/
  | rems (r : Rec)
  /-- REMN (R181) -/
  | remn (r : Rec)
  /-- ABS (R182) -/
  | abs (r : Rec)
  /-- MINS (R179) -/
  | mins (r : Rec)
  /-- MAXS (R179) -/
  | maxs (r : Rec)
  /-- MINN (R179) -/
  | minn (r : Rec)
  /-- MAXN (R179) -/
  | maxn (r : Rec)
  /-- AND (R183) -/
  | and (r : Rec)
  /-- OR (R183) -/
  | or (r : Rec)
  /-- XOR (R183) -/
  | xor (r : Rec)
  /-- ANDN (R183) -/
  | andn (r : Rec)
  /-- NOT (R183) -/
  | not (r : Rec)
  /-- SHL (R184) -/
  | shl (r : Rec)
  /-- SHR (R184) -/
  | shr (r : Rec)
  /-- SAR (R184) -/
  | sar (r : Rec)
  /-- ROL (R184) -/
  | rol (r : Rec)
  /-- ROR (R184) -/
  | ror (r : Rec)
  /-- CLZ (R185) -/
  | clz (r : Rec)
  /-- CTZ (R185) -/
  | ctz (r : Rec)
  /-- POPC (R185) -/
  | popc (r : Rec)
  /-- BREV (R185) -/
  | brev (r : Rec)
  /-- BFX (R186) -/
  | bfx (r : Rec)
  /-- BFI (R186) -/
  | bfi (r : Rec)
  /-- CEQ (R187) -/
  | ceq (r : Rec)
  /-- CNE (R187) -/
  | cne (r : Rec)
  /-- CLTS (R187) -/
  | clts (r : Rec)
  /-- CLES (R187) -/
  | cles (r : Rec)
  /-- CLTN (R187) -/
  | cltn (r : Rec)
  /-- CLEN (R187) -/
  | clen (r : Rec)
  /-- CBIT (R188) -/
  | cbit (r : Rec)
  /-- PAND (R188) -/
  | pand (r : Rec)
  /-- POR (R188) -/
  | por (r : Rec)
  /-- PXOR (R188) -/
  | pxor (r : Rec)
  /-- PNOT (R188) -/
  | pnot (r : Rec)
  /-- LEA (R189) -/
  | lea (r : Rec)
  /-- SEXT (R190) -/
  | sext (r : Rec)
  /-- ZEXT (R190) -/
  | zext (r : Rec)
  /-- PACK2 (R191) -/
  | pack2 (r : Rec)
  /-- PACK4 (R191) -/
  | pack4 (r : Rec)
  /-- UNPK (R192) -/
  | unpk (r : Rec)
  /-- SWZ (R193) -/
  | swz (r : Rec)
  /-- ADDP (R194) -/
  | addp (r : Rec)
  /-- SUBP (R194) -/
  | subp (r : Rec)
  /-- AVGP (R194) -/
  | avgp (r : Rec)
  /-- ABSDP (R194) -/
  | absdp (r : Rec)
  /-- FADD (R196) -/
  | fadd (r : Rec)
  /-- FSUB (R196) -/
  | fsub (r : Rec)
  /-- FMUL (R196) -/
  | fmul (r : Rec)
  /-- FFMA (R196) -/
  | ffma (r : Rec)
  /-- FFMS (R196) -/
  | ffms (r : Rec)
  /-- FMIN (R197) -/
  | fmin (r : Rec)
  /-- FMAX (R197) -/
  | fmax (r : Rec)
  /-- FABS (R197) -/
  | fabs (r : Rec)
  /-- FNEG (R197) -/
  | fneg (r : Rec)
  /-- FCMP (R198) -/
  | fcmp (r : Rec)
  /-- FDIV (R196) -/
  | fdiv (r : Rec)
  /-- FSQRT (R196) -/
  | fsqrt (r : Rec)
  /-- FRCP (R196) -/
  | frcp (r : Rec)
  /-- FRSQ (R196) -/
  | frsq (r : Rec)
  /-- FCLASS (R199) -/
  | fclass (r : Rec)
  /-- FEXP2 (R196) -/
  | fexp2 (r : Rec)
  /-- CVTIF (R201) -/
  | cvtif (r : Rec)
  /-- CVTFI (R202) -/
  | cvtfi (r : Rec)
  /-- CVTFF (R203) -/
  | cvtff (r : Rec)
  /-- FROUND (R203) -/
  | fround (r : Rec)
  /-- LD (R227) -/
  | ld (r : Rec)
  /-- ST (R228) -/
  | st (r : Rec)
  /-- LDA (R227) -/
  | lda (r : Rec)
  /-- STL (R228) -/
  | stl (r : Rec)
  /-- MNOP (R229) -/
  | mnop (r : Rec)
  /-- FENCE (R230) -/
  | fence (r : Rec)
  /-- PREF (R231) -/
  | pref (r : Rec)
  /-- LDU (R232) -/
  | ldu (r : Rec)
  /-- STU (R232) -/
  | stu (r : Rec)
  /-- LDW (R232) -/
  | ldw (r : Rec)
  /-- STW (R232) -/
  | stw (r : Rec)
  /-- PIN (R235) -/
  | pin (r : Rec)
  /-- UNPIN (R235) -/
  | unpin (r : Rec)
  /-- FLUSH (R236) -/
  | flush (r : Rec)
  /-- INVAL (R236) -/
  | inval (r : Rec)
  /-- AADD (R238) -/
  | aadd (r : Rec)
  /-- AMINS (R237) -/
  | amins (r : Rec)
  /-- AMAXS (R237) -/
  | amaxs (r : Rec)
  /-- AMINN (R237) -/
  | aminn (r : Rec)
  /-- AMAXN (R237) -/
  | amaxn (r : Rec)
  /-- AAND (R237) -/
  | aand (r : Rec)
  /-- AOR (R237) -/
  | aor (r : Rec)
  /-- AXOR (R237) -/
  | axor (r : Rec)
  /-- AXCHG (R237) -/
  | axchg (r : Rec)
  /-- ACAS (R239) -/
  | acas (r : Rec)
  /-- AFADD (R240) -/
  | afadd (r : Rec)
  /-- QINIT (R243) -/
  | qinit (r : Rec)
  /-- QTAKE (R244) -/
  | qtake (r : Rec)
  /-- QTAKEW (R244) -/
  | qtakew (r : Rec)
  /-- QGIVE (R245) -/
  | qgive (r : Rec)
  /-- QREAD (R245) -/
  | qread (r : Rec)
  /-- QREAD_LOCAL (R245) -/
  | qreadLocal (r : Rec)
  /-- QPOL (R243) -/
  | qpol (r : Rec)
  /-- PREG (R249) -/
  | preg (r : Rec)
  /-- PSIG (R249) -/
  | psig (r : Rec)
  /-- PWAIT (R250) -/
  | pwait (r : Rec)
  /-- PDROP (R249) -/
  | pdrop (r : Rec)
  /-- PSTAT (R250) -/
  | pstat (r : Rec)
  /-- JOIN (R252) -/
  | join (r : Rec)
  /-- JCFG (R251) -/
  | jcfg (r : Rec)
  /-- CARM (R257) -/
  | carm (r : Rec)
  /-- CSET (R259) -/
  | cset (r : Rec)
  /-- CFIRE (R258) -/
  | cfire (r : Rec)
  /-- CSTAT (R259) -/
  | cstat (r : Rec)
  /-- CCANCEL (R259) -/
  | ccancel (r : Rec)
  /-- CHBIND (R262) -/
  | chbind (r : Rec)
  /-- CHEXP (R263) -/
  | chexp (r : Rec)
  /-- HIN (R265) -/
  | hin (r : Rec)
  /-- HOUT (R266) -/
  | hout (r : Rec)
  /-- XSEND (R267) -/
  | xsend (r : Rec)
  /-- VADD (R271) -/
  | vadd (r : Rec)
  /-- VSUB (R271) -/
  | vsub (r : Rec)
  /-- VMUL (R271) -/
  | vmul (r : Rec)
  /-- VFMA (R271) -/
  | vfma (r : Rec)
  /-- VMIN (R271) -/
  | vmin (r : Rec)
  /-- VMAX (R271) -/
  | vmax (r : Rec)
  /-- VABS (R271) -/
  | vabs (r : Rec)
  /-- VNEG (R271) -/
  | vneg (r : Rec)
  /-- VCMP (R273) -/
  | vcmp (r : Rec)
  /-- VSEL (R274) -/
  | vsel (r : Rec)
  /-- VEXP2 (R272) -/
  | vexp2 (r : Rec)
  /-- VLOG2 (R272) -/
  | vlog2 (r : Rec)
  /-- VRCP (R272) -/
  | vrcp (r : Rec)
  /-- VRSQ (R272) -/
  | vrsq (r : Rec)
  /-- VTANH (R272) -/
  | vtanh (r : Rec)
  /-- VSIGM (R272) -/
  | vsigm (r : Rec)
  /-- VRED (R275) -/
  | vred (r : Rec)
  /-- VSCAN (R275) -/
  | vscan (r : Rec)
  /-- VPERM (R276) -/
  | vperm (r : Rec)
  /-- VBCAST (R278) -/
  | vbcast (r : Rec)
  /-- VSHUF (R277) -/
  | vshuf (r : Rec)
  /-- VCVT (R279) -/
  | vcvt (r : Rec)
  /-- VQUANT (R281) -/
  | vquant (r : Rec)
  /-- VDEQ (R283) -/
  | vdeq (r : Rec)
  /-- VPACK (R280) -/
  | vpack (r : Rec)
  /-- VUNPK (R280) -/
  | vunpk (r : Rec)
  /-- VIOTA (R278) -/
  | viota (r : Rec)
  /-- VSPLAT (R278) -/
  | vsplat (r : Rec)
  /-- TCFG (R294) -/
  | tcfg (r : Rec)
  /-- TLD (R295) -/
  | tld (r : Rec)
  /-- TLD_STR (R296) -/
  | tldStr (r : Rec)
  /-- TLD_TOK (R297) -/
  | tldTok (r : Rec)
  /-- TST (R298) -/
  | tst (r : Rec)
  /-- TST_TOK (R297) -/
  | tstTok (r : Rec)
  /-- TZERO (R299) -/
  | tzero (r : Rec)
  /-- TMOV (R300) -/
  | tmov (r : Rec)
  /-- TTRN (R300) -/
  | ttrn (r : Rec)
  /-- ZLD (R298) -/
  | zld (r : Rec)
  /-- ZST (R298) -/
  | zst (r : Rec)
  /-- ZZERO (R299) -/
  | zzero (r : Rec)
  /-- ZCVT (R301) -/
  | zcvt (r : Rec)
  /-- MOP (R307) -/
  | mop (r : Rec)
  /-- MSEQ (R308) -/
  | mseq (r : Rec)
  /-- MPAIR (R310) -/
  | mpair (r : Rec)
  /-- CVT (R285) -/
  | cvt (r : Rec)
  /-- CLIP (R286) -/
  | clip (r : Rec)
  /-- TRAP (R207) -/
  | trap (r : Rec)
  /-- BRK (R208) -/
  | brk (r : Rec)
  /-- SYSRD (R206) -/
  | sysrd (r : Rec)
  /-- SYSWR (R206) -/
  | syswr (r : Rec)
  /-- TIME (R209) -/
  | time (r : Rec)
  /-- PERF (R210) -/
  | perf (r : Rec)
  /-- FEAT (R211) -/
  | feat (r : Rec)
  /-- DRAIN (R212) -/
  | drain (r : Rec)
  /-- MMA (R305) -/
  | mma (t : Ctl)
  /-- MMAP (R311) -/
  | mmap (t : Ctl)
  /-- CONFIG_WRITE (R64) -/
  | configWrite (addr : BitVec 13) (fld : BitVec 3) (val : Half)
  /-- BEGIN (R68) -/
  | beginStream (val : Half)
  /-- PATBEGIN (R72) -/
  | patbegin (val : Half)
  /-- RECTA (R72) -/
  | recta (val : Half)
  /-- RECTB (R72) -/
  | rectb (val : Half)
  /-- PATEND (R72) -/
  | patend (val : Half)
  /-- END (R69) -/
  | endStream (val : Half)
  /-- CHKLO (R70) -/
  | chklo (val : Half)
  /-- CHKHI (R70) -/
  | chkhi (val : Half)
  /-- INGRESS_RECORD (R433) -/
  | ingressRecord (cluster node : Nat) (value wtag : Word)
  /-- APERTURE_SEAL (R402) -/
  | apertureSeal (q : Nat)
  /-- LAUNCH (R406) -/
  | launch (l : LaunchPkt)
  /-- WAIT (R404) -/
  | wait (q : Byte) (seq : Dword)
  /-- WAITF (R439) -/
  | waitf (addr val : Dword)
  /-- SIGNAL (R400) -/
  | signal (addr val : Dword)
  /-- LOAD (R127) -/
  | load (obj size result : Dword)
  /-- LOAD_PLACE (R407) -/
  | loadPlace (rect : Half) (obj size result : Dword)
  /-- UNLOAD (R420) -/
  | unload (handle : Word)
  /-- FREEZE (R421) -/
  | freeze (rect : Half) (list : Dword)
  /-- RESUME (R424) -/
  | resume (list : Dword)
  /-- DRAIN_PACKET (R423) -/
  | drainPacket (rect : Half) (list : Dword) (dtime : Word)
  /-- KILL (R419) -/
  | kill (q : Byte)
  /-- RETRY (R415) -/
  | retry (cluster : Byte) (station : Half)
  /-- RELEASE (R414) -/
  | release (q : Byte)
  /-- TLBINV (R428) -/
  | tlbinv (va size root : Dword)
  /-- CONTINUE (R418) -/
  | continuePkt (q : Byte) (handle : Word)
  /-- EVHEAD_WRITE (R410) -/
  | evheadWrite (q : Nat) (val : Word)
  /-- HINT_WRITE (R397) -/
  | hintWrite (q off : Nat) (data : List Byte)
  /-- QCTL_WRITE (R399) -/
  | qctlWrite (q : Nat) (val : Word)
  /-- EGCONS_WRITE (R434) -/
  | egconsWrite (val : Word)
  /-- FPPROD_WRITE (R398) -/
  | fpprodWrite (val : Word)
  /-- SVPROD_WRITE (R398) -/
  | svprodWrite (val : Word)
  /-- REGISTER_WRITE (R398) -/
  | registerWrite (off : Nat) (data : List Byte)
  /-- HANDOVER_GO (R440) -/
  | handoverGo (val : Word)
  /-- HANDOVER_END (R440) -/
  | handoverEnd (val : Word)
  /-- RCVCTL_GO (R450) -/
  | rcvctlGo (val : Word)
  /-- READPWR (R454) -/
  | readpwr (payload : List Byte)
  /-- READLOG (R454) -/
  | readlog (payload : List Byte)
  /-- STAGE (R454) -/
  | stage (payload : List Byte)
  /-- COMMIT (R454) -/
  | commit (payload : List Byte)
  /-- SETKEY (R455) -/
  | setkey (payload : List Byte)
  /-- QUOTE (R452) -/
  | quote (payload : List Byte)
  /-- READQUOTE (R454) -/
  | readquote (payload : List Byte)
  /-- STATUS (R454) -/
  | status (payload : List Byte)
  /-- MGMT_RESET (R454) -/
  | mgmtReset (payload : List Byte)
  /-- READKEYS (R454) -/
  | readkeys (payload : List Byte)
  /-- UNKNOWN_MGMT_CODE (R454) -/
  | unknownMgmtCode (code : Byte)
  /-- BYPASS (R456) -/
  | bypass (ir : Byte)
  /-- MMA_COMPLETE (R305) -/
  | mmaComplete
  /-- MMAP_PARTNER_ARRIVAL (R311) -/
  | mmapPartnerArrival
  /-- MO_STREAM_FAULT (R416) -/
  | moStreamFault
  /-- MSEQ_STEP (R309) -/
  | mseqStep
  /-- REGISTER_OP_BEGIN (R290) -/
  | registerOpBegin
  /-- TILE_WRITE_COMPLETE (R290) -/
  | tileWriteComplete
  /-- TOKEN_ARRIVAL (R31) -/
  | tokenArrival
  /-- OVERFLOW_SLOT_FREED (R40) -/
  | overflowSlotFreed
  /-- CREDIT_RETURN (R36) -/
  | creditReturn
  /-- ARBITER_WEIGHT_UPDATE (R37) -/
  | arbiterWeightUpdate
  /-- DEADLOCK_PROBE_SEND (R59) -/
  | deadlockProbeSend
  /-- DEADLOCK_PROBE_ARRIVAL (R59) -/
  | deadlockProbeArrival
  /-- EXPORT_SEND (R50) -/
  | exportSend
  /-- EXPORT_ARRIVAL (R62) -/
  | exportArrival
  /-- EXPORT_ACK (R62) -/
  | exportAck
  /-- WAVE_CLOSE_QUIESCENCE (R42) -/
  | waveCloseQuiescence
  /-- CONTEXT_COMPLETE (R63) -/
  | contextComplete
  /-- MIGRATION_SELECT (R417) -/
  | migrationSelect
  /-- STUB_RELEASE (R55) -/
  | stubRelease
  /-- STREAM_CUT_SHORT (R69) -/
  | streamCutShort
  /-- CONFIG_SWEEP (R51) -/
  | configSweep
  /-- SEED_INJECTION (R51) -/
  | seedInjection
  /-- WSB_ARRIVAL (R221) -/
  | wsbArrival
  /-- MEMORY_REPLY (R217) -/
  | memoryReply
  /-- PAGE_WALK (R318) -/
  | pageWalk
  /-- DEMAND_PAGE_SERVICE (R415) -/
  | demandPageService
  /-- VAULT_ACCESS (R325) -/
  | vaultAccess
  /-- ATOMIC_AT_HOME (R241) -/
  | atomicAtHome
  /-- RDS (R331) -/
  | rds
  /-- RDX (R331) -/
  | rdx
  /-- UPG (R331) -/
  | upg
  /-- EVS (R332) -/
  | evs
  /-- EVD (R332) -/
  | evd
  /-- DATA (R330) -/
  | data
  /-- FWDS (R331) -/
  | fwds
  /-- FWDX (R331) -/
  | fwdx
  /-- INV (R330) -/
  | inv
  /-- IACK (R330) -/
  | iack
  /-- EACK (R332) -/
  | eack
  /-- HOST_COHERENT_REQUEST (R431) -/
  | hostCoherentRequest
  /-- SOFT_ERROR_SCRUB (R329) -/
  | softErrorScrub
  /-- QUARRY_HOME_REQUEST (R367) -/
  | quarryHomeRequest
  /-- QUARRY_REFILL (R368) -/
  | quarryRefill
  /-- QUARRY_RECALL (R369) -/
  | quarryRecall
  /-- QUARRY_RECALL_ANSWER (R369) -/
  | quarryRecallAnswer
  /-- COUNTER_LINE_WRITE (R363) -/
  | counterLineWrite
  /-- COPY_TRIGGER (R258) -/
  | copyTrigger
  /-- COPY_FAULT (R260) -/
  | copyFault
  /-- COPY_COMPLETE (R258) -/
  | copyComplete
  /-- CHANNEL_ARRIVAL (R261) -/
  | channelArrival
  /-- REMOTE_COPY_ELEMENT (R437) -/
  | remoteCopyElement
  /-- JOIN_PART_ARRIVAL (R252) -/
  | joinPartArrival
  /-- XSEND_RECORD_ARRIVAL (R267) -/
  | xsendRecordArrival
  /-- SPAN_FLIT_REPLAY (R435) -/
  | spanFlitReplay
  /-- SPAN_PORT_DOWN (R435) -/
  | spanPortDown
  /-- SPAN_ROUTE_TIMEOUT (R435) -/
  | spanRouteTimeout
  /-- LAUNCH_WINDOW_SEAL (R402) -/
  | launchWindowSeal
  /-- DISPATCH_SELECT (R405) -/
  | dispatchSelect
  /-- WAITF_FLAG_RECHECK (R439) -/
  | waitfFlagRecheck
  /-- FREEZE_SAVE (R422) -/
  | freezeSave
  /-- DRAIN_SWEEP_COMPLETE (R423) -/
  | drainSweepComplete
  /-- DRAIN_TIMEOUT (R423) -/
  | drainTimeout
  /-- WATCHDOG (R409) -/
  | watchdog
  /-- PREEMPT_FREEZE (R426) -/
  | preemptFreeze
  /-- PREEMPT_RESUME (R426) -/
  | preemptResume
  /-- FERRY_START (R383) -/
  | ferryStart
  /-- READ_SET_CONFLICT (R386) -/
  | readSetConflict
  /-- SPECULATION_TIMEOUT (R395) -/
  | speculationTimeout
  /-- RETENTION_SLEEP (R340) -/
  | retentionSleep
  /-- HANDOVER_CLEAR (R440) -/
  | handoverClear
  /-- HANDOVER_PAGE_ARRIVAL (R440) -/
  | handoverPageArrival
  /-- POWER_SAMPLE (R444) -/
  | powerSample
  /-- POWER_ON (R445) -/
  | powerOn
  /-- DEVICE_RESET (R445) -/
  | deviceReset
  /-- STAGED_IMAGE_CHECK (R448) -/
  | stagedImageCheck
  /-- IDCODE (R456) -/
  | idcode
  /-- SAMPLE_PRELOAD (R456) -/
  | samplePreload
  /-- EXTEST (R456) -/
  | extest
  /-- SPAN_ACCESS_REQUEST (R337) -/
  | spanAccessRequest
  /-- POWER_FAULT (R446) -/
  | powerFault
  /-- SPAN_PORT_UP (R435) -/
  | spanPortUp
  deriving DecidableEq, Repr

end Sys2Proof
end

