-- ==== Sys2Proof/Machine/State.lean ====
section
/-! DEFINITION. The state of a DX8 device as plain data: the regions of its 64 clusters, its memory and caches, the
dispatcher, the links, the tollhouse and the activities that are due; and the state right after bring-up (R445). -/

namespace Sys2Proof.Machine

open Sys2Proof

/-- Why a step can stop. No meaning answers with one: every instruction of the table has an effect in every state. -/
inductive Fault where
  /-- Raised by `step` alone, where the station, queue or port named by the activity in hand holds no word that decodes.
  Safe: the loader's checks (R96) keep such a record out of every resident configuration. -/
  | undecodable (c st : Nat)
  deriving DecidableEq, Repr

/-- Why a step can be refused. -/
inductive Refusal where
  /-- Raised by an arm of `exec` for an instruction without a meaning. Safe: the machine stops. No arm does so. -/
  | notModelled (mnemonic : String)
  deriving DecidableEq, Repr

/-- A token, or a pull request, that waits in a matching store (R30, R33, R39). One that completes the operands of a WADV or of a TAGWR
that writes WAVE leaves its input queue only for the firing (R43, R44): `queued` is the key of that queue. `reply` is the request whose
reply or completion a token carries (R61, R217). -/
structure MatchEntry where
  station : Nat
  port    : Port
  request : Bool
  value   : Value
  tag     : Word
  sticky  : Bool
  spilled : Bool
  queued  : Option Nat := none
  reply   : Option Nat := none
  /-- The fabric cycle in which the token reached its station (R165). -/
  came    : Nat := 0
  /-- The element whose store still holds a token of an instruction that has moved away from it (R55); none for the station's own. -/
  left    : Option Nat := none
  deriving DecidableEq, Repr

/-- The four counts of a context in one cluster (R61). -/
structure Counts where
  flight  : Nat := 0
  credits : Nat := 0
  replies : Nat := 0
  exports : Nat := 0
  deriving DecidableEq, Repr

/-- A wave's record (R42, R170, R221 to R223): block, tag, whether it is open, EXIT firings counted, the own and successor
number of the operation of its chain that issued last, whether its chain has finished, and whether DRAIN closed it (R212).
A region lists its waves in the order in which they opened. -/
structure Wave where
  block    : Nat
  tag      : Word
  isOpen   : Bool := true
  exits    : Nat := 0
  last     : Option (BitVec 5 × BitVec 5) := none
  finished : Bool := false
  drained  : Bool := false
  deriving DecidableEq, Repr

/-- An operation in the wave store buffer or in its station's refusal slot (R225). -/
structure Buffered where
  id      : Nat
  refused : Bool
  deriving DecidableEq, Repr

/-- Atomic operations (R237). -/
inductive AtomicOp where
  | add | mins | maxs | minn | maxn | and | or | xor | xchg | cas | fadd
  deriving DecidableEq, Repr

/-- Quarry operations (R242 to R245). -/
inductive QuarryOp where
  | init | take | takew | give | read | readLocal | pol
  deriving DecidableEq, Repr

/-- Phaser operations (R249, R250). -/
inductive PhaserOp where
  | reg | sig | wait | drop | stat
  deriving DecidableEq, Repr

/-- What a memory request does once it is performed. -/
inductive ReqKind where
  | load
  | store
  | fence
  | mnop
  | pref (dest : BitVec 2)
  | pin (page : Bool)
  | unpin (page : Bool)
  | flush (hbm : Bool)
  | inval (page : Bool)
  | atomic (op : AtomicOp)
  | quarry (op : QuarryOp)
  | phaser (op : PhaserOp)
  | tileLoad (op : Nat)
  | tileStore (op : Nat)
  | streamRead (mo : Nat)
  | descriptor (k : Nat)
  | copyRead (k : Nat)
  | copyWrite (k : Nat)
  | flagWrite
  deriving DecidableEq, Repr

/-- The trap codes (R413). -/
inductive Trap where
  | illegal | badTarget | tileEmpty | align | page | access | deadlock | feature | quarry | brk | trap | machineCheck
  deriving DecidableEq, Repr

/-- Where a request stands: in the store buffer, issued, waiting for a coherence grant or at its home, vault or link,
performed, held at its port by a fault (R218), by a speculation (R388) or withdrawn by a freeze (R375). -/
inductive Stage where
  | buffered
  | issued
  | away
  | performed
  | held (t : Trap)
  | paused
  | withdrawn
  deriving DecidableEq, Repr

/-- What a translation gives: the physical address, the leaf, where the entry stands, and the entries that the walk read, none where a
cached translation served (R315, R319). -/
structure Translation where
  pa     : Nat
  leaf   : Nat
  level  : Nat
  entry  : Nat
  walked : List Nat := []
  deriving DecidableEq, Repr

/-- A memory request (R217): who sent it, what it does, the bytes it names (`va`, `size`) and the scale-plane address of a
tile (`aux`), its operands, its order and scope (R216, R343) and sequence fields (R91), how far its address generator has
come (R410 AGEN) with the bytes it has read (`got`), the lines it awaits, and its reply once performed. -/
structure MemReq where
  id      : Nat
  cluster : Nat
  station : Nat
  tag     : Word
  kind    : ReqKind
  va      : Dword
  size    : Nat := 4
  aux     : Dword := 0
  fmt     : BitVec 4 := 0
  flags   : BitVec 4 := 0
  scope   : BitVec 3 := 3
  a       : Word := 0
  b       : Word := 0
  c       : Word := 0
  data    : List Byte := []
  acquire : Bool := false
  release : Bool := false
  ordered : Bool := false
  silent  : Bool := false
  pred    : BitVec 5 := 0
  own     : BitVec 5 := 0
  succ    : BitVec 5 := 0
  block   : Nat := 0
  rid     : BitVec 16 := 0
  agen    : Nat := 0
  stage   : Stage := .issued
  result  : List Value := []
  waits   : List Nat := []
  got     : List Byte := []
  /-- The answer of another device to the part of the access in hand: the bytes read, or none for a write (R337). -/
  fetched : Option (List Byte) := none
  /-- The base slot that the address is formed with, and the offset to it: a buffered operation forms its address when it issues (R206,
  R214). -/
  slot    : Nat := 0
  off     : Dword := 0
  /-- The translation of the second half of a split access, made before the first half is performed (R336). -/
  second  : Option Translation := none
  /-- The translation that a demand service made in a freeze, with the address it is of: the request is saved as translated (R429). -/
  early   : Option (Nat × Translation) := none
  /-- The vault port that the access in hand has been sent to, by its cluster, with the number that orders what one memory port sends (R326,
  R360). -/
  sent    : Option (Nat × Nat) := none
  deriving DecidableEq, Repr

/-- A tile register (R287, R288, R292): control word, bytes (row r at 128r), scale plane, full bit. -/
structure Tile where
  ctrl  : Word := 0x0000_0FFF#32
  bytes : Bytes := []
  plane : Bytes := []
  full  : Bool := true
  deriving DecidableEq, Repr

/-- An accumulator (R287, R289): control word, bytes in rows one after another, full bit. -/
structure Acc where
  ctrl  : Word := 0x0000_3FFF#32
  bytes : Bytes := []
  full  : Bool := true
  deriving DecidableEq, Repr

/-- What a register operation does (R294 to R305). -/
inductive RegAct where
  | tcfg (w : Word)
  | tld (va scale : Dword) (stride : Word) (scaled : Bool)
  | arm (va scale : Dword) (stride : Word) (port : Nat) (scaled : Bool)
  | tldTok (row : Word) (v : Wide)
  | tst (va scale : Dword) (stride : Word) (scaled : Bool)
  | tstTok (row : Word)
  | tzero
  | tmov
  | ttrn
  | zld (va : Dword) (stride : Word)
  | zst (va : Dword) (stride : Word)
  | zzero
  | zcvt (fmt rnd : BitVec 4)
  | mma (mo : Nat)
  deriving DecidableEq, Repr

/-- A register operation in the tile file's order (R290): the registers it reads and writes, and whether it has begun. -/
structure RegOp where
  id      : Nat
  station : Nat
  tag     : Word
  reads   : List (BitVec 7)
  writes  : List (BitVec 7)
  fe      : Bool
  begun   : Bool
  release : Bool
  acquire : Bool
  act     : RegAct
  agen    : Nat
  /-- The values of ports A and B of the firing, for an event (R410). -/
  a       : Word
  b       : Word
  /-- The fabric cycle in which the operation reached the tile file (R290). -/
  came    : Nat := 0
  deriving DecidableEq, Repr

/-- A control token in an MO's queue (R100, R303), whether an MPAIR station sent it: its station and offsets (R310), and the request
whose reply it carries (R217). -/
structure MoToken where
  word : Word
  tag  : Word
  pair : Option (Nat × BitVec 8)
  reply : Option Nat := none
  deriving DecidableEq, Repr

/-- An MO's operation in flight (R305, R306, R311): token, the shadow accumulator, whether the half waits for its partner,
whether a streamed fault holds it, and the streamed bytes read so far. -/
structure MoRun where
  token   : MoToken
  opId    : Nat
  shadow  : Acc
  partner : Bool
  /-- Z stands restored from the shadow, and the operation is to begin again (R306). -/
  restored : Bool := false
  faulted : Option Trap
  stream  : Bytes
  rows    : Nat
  deriving DecidableEq, Repr

/-- A matrix operator (R303). -/
structure Mo where
  queue : List MoToken := []
  run   : Option MoRun := none
  deriving DecidableEq, Repr

/-- The B-stream slot of a memory port (R296). -/
structure Slot where
  station : Nat
  tag     : Word
  va      : Dword
  scale   : Dword
  stride  : Word
  ctrl    : Word
  deriving DecidableEq, Repr

/-- A sequencer expansion in progress (R309). -/
structure Expansion where
  id       : Nat
  station  : Nat
  template : Word
  step     : Word
  tag      : Word
  next     : Nat
  deriving DecidableEq, Repr

/-- A JOIN round of one station and tag (R252, R253): the group and count it began with, the local arrivals folded and their part,
the parts of other clusters, whether parts disagreed, and the groups whose clusters have been told so. -/
structure Round where
  station : Nat
  tag     : Word
  group   : BitVec 10
  count   : BitVec 16
  seen    : Nat
  part    : Word
  parts   : List (Nat × Word)
  bad     : Bool
  told    : List (BitVec 10) := []
  deriving DecidableEq, Repr

/-- Template states (R254, R257). -/
inductive CopyState where
  | idle | armed | busy | error
  deriving DecidableEq, Repr

/-- A copy in flight (R256, R258): its trigger, its own descriptor, the element reached, the saturations counted and the number of
its request. -/
structure CopyRun where
  index : Word
  tag   : Word
  desc  : Wide
  next  : Nat
  sat   : Nat
  req   : Nat
  deriving DecidableEq, Repr

/-- A trigger that waits at a template (R258): index, tag, the requests of the thread that had issued and not been performed at the
trigger (R356), and the request whose reply its token carries (R217). -/
structure Trigger where
  index : Word
  tag   : Word
  after : List Nat
  reply : Option Nat := none
  deriving DecidableEq, Repr

/-- A copy template (R254, R255, R257). -/
structure Template where
  desc  : Wide := 0
  state : CopyState := .idle
  err   : BitVec 6 := 0
  sat   : BitVec 16 := 0
  queue : List Trigger := []
  run   : Option CopyRun := none
  /-- The contexts that have used the template (R254). -/
  users : List (BitVec 8) := []
  deriving DecidableEq, Repr

/-- A channel element's binding (R262, R263): channel tag, expectation, phases completed, flag mode, the firing's value and tag, and the
context that made it. -/
structure Binding where
  channel : BitVec 16
  exp     : Word
  phase   : Nat
  flag    : Bool
  value   : Word
  tag     : Word
  ctx     : Nat := 0
  deriving DecidableEq, Repr

/-- A pinned item of a context (R322, R323), kept in the cluster that pinned it: a line of its L1, or the vault slot whose number is
512 times its cluster plus its place. -/
structure Pin where
  ctx  : BitVec 8
  page : Bool
  item : Nat
  /-- The backing page of a pinned slot. -/
  backing : Nat := 0
  deriving DecidableEq, Repr

/-- A line held by an L1 or an eviction buffer (R321, R332). -/
structure L1Line where
  state : LineState
  data  : Wide
  deriving DecidableEq, Repr

/-- A vault slot that is not EMPTY (R325). -/
structure VaultSlot where
  page   : Nat
  pinned : Bool
  dirty  : Bool
  deriving DecidableEq, Repr

/-- A slab (R364): AMOUNT, CEIL, and its place in use order (R377). -/
structure Slab where
  amount : Nat
  ceil   : Nat
  used   : Nat
  deriving DecidableEq, Repr

/-- A cached translation (R319): the root and page it was read for, and the leaf. -/
structure Cached where
  root  : Dword
  level : Nat
  page  : Nat
  leaf  : Dword
  entry : Nat
  deriving DecidableEq, Repr

/-- A resident configuration (R54, R71): its tag, the addresses its streams wrote, its place in use order. -/
structure Resident where
  tag   : Half
  addrs : List Nat
  used  : Nat
  deriving DecidableEq, Repr

/-- Where a stream stands in the order of R69 and R72. -/
inductive StreamPhase where
  | start | body | pattern (rects : List (BitVec 10 × BitVec 10)) (open_ : Option (BitVec 10)) (writes : List Word)
  | ended | checked (lo : Half)
  deriving DecidableEq, Repr

/-- A stream in delivery to a region (R66 to R70, R96): words to come, phase, bytes under the checksum, tag, the records as
written so far, addresses written, whether it amends a resident configuration, the writes whose relative target left the grid
(R74), and the delivery it belongs to. -/
structure Delivery where
  words   : List Word
  phase   : StreamPhase
  summed  : List Byte
  tag     : Half
  records : Table RawRecord
  written : List Nat
  amend   : Bool
  outside : List (Nat × Nat) := []
  job     : Nat
  deriving DecidableEq, Repr

/-- Arbitration state of a station (R37): weight, deficit, and tokens that entered its queues this period. -/
structure Arb where
  weight  : Nat := 1
  deficit : Nat := 0
  entered : Nat := 0
  deriving DecidableEq, Repr

/-- The region of one cluster. -/
structure Region where
  /-- Records by current station address (R75, R76, R93, R94). -/
  records   : Table RawRecord := []
  residents : List Resident := []
  /-- Migrated instructions: home address to current address (R55, R99). -/
  moved     : Table Nat := []
  /-- Stubs: old address to new address (R55). -/
  stubs     : Table Nat := []
  delivery  : Option Delivery := none
  sweep     : Nat := 0
  swept     : Bool := true
  /-- Input-queue entries in use by queue number (R36). -/
  inUse     : Table Nat := []
  store     : List MatchEntry := []
  /-- Requests sent for the pull port of a station and tag, and not yet matched by a firing (R33). -/
  asked     : List (Nat × Port × Word) := []
  stalled   : List Nat := []
  /-- Results that wait at their station for a credit (R36). -/
  blocked   : List (Nat × Token) := []
  arb       : Table Arb := []
  arbSince  : Nat := 0
  /-- The period of R417 in progress: its first fabric cycle, the entries each input queue held times the cycles it held them, and the
  firings of each element. -/
  movedAt   : Nat := 0
  occupied  : Table Nat := []
  fired     : Table Nat := []
  /-- Since when each waiting station waits, in fabric cycles (R59). -/
  waits     : Table Nat := []
  waves     : List Wave := []
  buffer    : List Buffered := []
  counts    : Table Counts := []
  /-- Requests whose reply or completion is on its way: number, tag, and the tokens of it that are not yet consumed (R61, R217). -/
  answers   : List (Nat × Word × Nat) := []
  exitv     : Table Word := []
  bases     : Table Dword := []
  srseed    : Word := 1
  brken     : Word := 0
  /-- The last firing at the system register port: its fabric cycle and its station (R206). -/
  sysAt     : Nat × Nat := (0, 0)
  lfsr      : List Word := []
  perf      : Table Word := []
  brkHeld   : List (Nat × Word × Word) := []
  tiles     : Table Tile := []
  accs      : Table Acc := []
  regOps    : List RegOp := []
  mos       : Table Mo := []
  slots     : Table Slot := []
  expansions : List Expansion := []
  groups    : Table (BitVec 10) := []
  rounds    : List Round := []
  templates : Table Template := []
  bindings  : Table Binding := []
  ingress   : Table (List IngressRec) := []
  pins      : List Pin := []
  l1        : Table L1Line := []
  evicting  : Table L1Line := []
  vault     : Table VaultSlot := []
  vaultBytes : Bytes := []
  slabs     : Table Slab := []
  /-- The lines whose slab entry an uncorrectable soft error has struck, and nothing has met yet, with the report (R364, R376). -/
  struckSlabs : Table SoftError := []
  refills   : Table Nat := []
  tlb       : List Cached := []
  features  : List Nat := []
  halted    : Bool := false
  draining  : Bool := false
  asleep    : Bool := false
  deriving DecidableEq, Repr

/-- VE v's register after a write of SEED (R146). -/
def lfsrLoad (seed : Word) (v : Nat) : Word :=
  let x := seed ^^^ BitVec.ofNat 32 (v * 0x9E3779B9)
  if x = 0 then 1 else x

/-- A region right after bring-up: no record, no token, registers at their reset values (R65, R146, R205, R287, R445). -/
def Region.reset : Region := { lfsr := (List.range 32).map (lfsrLoad 1) }

/-- What is in hand: the cluster, station, tag and operand values of a firing (R154), the queue of a packet, or what an
event without an encoding acts on. -/
structure Site where
  cluster : Nat := 0
  station : Nat := 0
  tag     : Word := 0
  a       : Value := .narrow 0
  b       : Value := .narrow 0
  c       : Value := .narrow 0
  port    : Port := .a
  hasC    : Bool := false
  go      : Bool := true
  queue   : Nat := 0
  word    : Word := 0
  pair    : Option (Nat × BitVec 8) := none
  id      : Nat := 0
  index   : Nat := 0
  amount  : Option Nat := none
  token   : Token := { cluster := 0, station := 0, port := .a, kind := .data, value := .narrow 0, tag := 0 }
  probe   : Probe := { cluster := 0, origin := 0, list := [], hops := 0 }
  msg     : Msg := { src := .l1 0, dst := .die 0, line := 0, requester := .l1 0, state := .i, data := none }
  part    : JoinPart := { src := 0, dst := 0, station := 0, tag := 0, group := 0, count := 0, value := 0 }
  ingress : IngressRec := { cluster := 0, node := 0, value := 0, wtag := 0 }
  remote  : RemoteElement := { va := 0, data := [], channel := none }
  access  : SpanAccess := { write := false, addr := 0, data := [], size := 0 }
  host    : HostReq := { write := false, addr := 0, data := [] }
  reading : PowerReading := { power := 0, junction := [] }
  error   : SoftError := { die := 0, unit := 0, kind := 0, line := none }
  deriving DecidableEq, Repr

/-- An L2 line of one die (R328). -/
structure L2Line where
  data  : Wide
  dirty : Bool
  deriving DecidableEq, Repr

/-- A request that has arrived at a die point or a home and waits for its turn (R331, R333): the fabric cycle of its arrival, its rank among
those of one cycle, and the message or host request. -/
structure Waiting where
  cycle : Nat
  rank  : Nat
  instr : Instr
  site  : Site
  deriving DecidableEq, Repr

/-- How far a request at a die point or a home has come: it has gone on to the home, it gathers the answers of other holders, or its grant
is on its way (R331, R333). -/
inductive TxnPhase where
  | home | gather | grant
  deriving DecidableEq, Repr

/-- A request in progress at a die point or home (R331, R333): the message, whether it asks for an exclusive copy, whether it is an UPG of
a recorded cluster, the answers still to come, how far it has come, and what was asked in full. -/
structure Txn where
  msg   : Msg
  excl  : Bool
  upg   : Bool := false
  acks  : Nat
  phase : TxnPhase := .gather
  site  : Site := {}
  deriving DecidableEq, Repr

/-- The coherence state of one die: L2 lines, the L1 holders it records (exact, the snoop filter for lines homed off the
die), its eviction buffer, the requests in progress at its points and those that wait there (R328 to R335). -/
structure Die where
  l2      : Table L2Line := []
  holders : Table (List (Nat × LineState)) := []
  evicting : Table L2Line := []
  txns    : Table Txn := []
  waiting : Table (List Waiting) := []
  deriving DecidableEq, Repr

/-- A home directory entry (R333): one state per die and one for the host, the request in progress and those that wait. -/
structure DirEntry where
  dies : List LineState := [.i, .i, .i, .i]
  host : LineState := .i
  txn  : Option Txn := none
  waiting : List Waiting := []
  deriving DecidableEq, Repr

/-- A request that has arrived at the home of a counter line and waits for its turn (R366, R367): its number, 0 for a write from outside the
clusters; the refills its cluster had received; whether its page is shared; the fabric cycle and the cluster. -/
structure Arrival where
  id       : Nat
  received : Nat := 0
  shr      : Bool := false
  cycle    : Nat
  rank     : Nat
  deriving DecidableEq, Repr

/-- The home of a counter line (R366 to R371): waiters in order, refills sent to each cluster, the recall in progress with
the request it serves, the answers still to come and the number that have come. -/
structure QuarryHome where
  waiters : List (Nat × Nat) := []
  sent    : Table Nat := []
  recalled : Option Nat := none
  awaited : List Nat := []
  answers : Nat := 0
  /-- Requests that have arrived and wait their turn. -/
  arrived : List Arrival := []
  /-- The plain write that a recall was made for and that is now to be performed, with how far it had come then (R363). -/
  writing : Option (Nat × Nat × Nat) := none
  deriving DecidableEq, Repr

/-- A launch rectangle (R47). -/
structure Rect where
  x0 : Nat
  y0 : Nat
  lw : Nat
  lh : Nat
  deriving DecidableEq, Repr

/-- A context (R45): one instance of a configuration on the clusters of a rectangle. -/
structure Ctx where
  id      : Nat
  ctx     : BitVec 8
  rect    : Rect
  cfg     : Half
  launch  : Nat
  trapped : Bool
  killed  : Bool
  saved   : Bool
  spec    : Bool
  seeded  : Bool
  deriving DecidableEq, Repr

/-- A launch that has begun (R404, R406): packet fields, the object that runs, its sequencing step, the context of the
step, the watchdog's count (R409), and the queue's modes as they stood when it began (R399). -/
structure Launch where
  id      : Nat
  queue   : Nat
  pseq    : Dword
  handle  : Word
  object  : Word
  rect    : Rect
  args    : List Word
  binds   : List Dword
  classes : Word
  prio    : Nat
  notify  : Bool
  mayspec : Bool
  step    : Nat
  steps   : Nat
  image   : Nat
  start   : Nat
  counted : Nat
  wdog    : Word
  barked  : Bool
  qctl    : Word
  root    : Dword
  l1quota : Word
  vquota  : Word
  spec    : Bool
  claimed : Bool
  killed  : Bool
  began   : Nat
  deriving DecidableEq, Repr

/-- One image of an object (R117): its tag, whether it amends, its stream words. -/
structure Image where
  tag   : Half
  amend : Bool
  words : List Word
  deriving DecidableEq, Repr

/-- A sequencing step (R119). -/
structure SeqStep where
  image : Byte
  cond  : Byte
  t     : Byte
  f     : Byte
  value : Word
  deriving DecidableEq, Repr

/-- A port binding (R118). -/
structure BindEntry where
  image : Byte
  port  : Byte
  slot  : Byte
  kind  : Byte
  value : Dword
  deriving DecidableEq, Repr

/-- A symbol that later objects can import (R121). -/
structure Symbol where
  name  : List Byte
  bind  : Byte
  value : Dword
  graph : Bool
  deriving DecidableEq, Repr

/-- A loaded object (R127, R420). -/
structure Obj where
  handle   : Word
  obj      : Dword
  sig      : List Byte
  key      : List Byte
  images   : List Image
  binds    : List BindEntry
  seq      : List SeqStep
  symbols  : List Symbol
  required : List Nat
  routines : Table Word
  sections : List (Nat × Nat)
  refs     : Nat
  retiring : Bool
  deriving DecidableEq, Repr

/-- A placing delivery of a LOAD, LAUNCH or resume (R407, R408, R424): the object, the clusters, the image in delivery and its tag,
whether it has begun, the launch that seeds follow for, the clusters that have not ended, the failure with the lowest cluster, and
the queue of the LOAD, if one asked. -/
structure Job where
  id       : Nat
  queue    : Option Nat
  handle   : Word
  clusters : List Nat
  image    : Nat
  tag      : Half
  begun    : Bool
  launch   : Option Nat
  waiting  : List Nat
  failed   : Option (Nat × Word)
  deriving DecidableEq, Repr

/-- A packet that a queue has taken (R402, R404): the packet, whether the dispatcher has begun it, whether it has begun its action (a
KILL, a FREEZE, R419) or stopped for a feature (R418), the arguments and bindings of a LAUNCH with its extension block as it stood when
the packet was taken, and the address and access of a block that could not be read (R401). -/
structure Current where
  bytes   : BitVec 512
  pseq    : Dword
  begun   : Bool
  stopped : Bool
  args    : List Word
  binds   : List Dword
  bad     : Option (Nat × Nat) := none
  /-- The contexts that a KILL has discarded with a speculation of the queue (R404, R419). -/
  discarded : List Nat := []
  deriving DecidableEq, Repr

/-- An event that waits for room in its ring: the context that raised it, if one did, and the entry's bytes before its SEAL (R410). -/
structure HeldEvent where
  raiser : Option Nat := none
  bytes  : List Byte
  deriving DecidableEq, Repr

/-- A launch queue (R399, R402, R404). -/
structure Queue where
  qctl    : Word := 0x0050_0000#32
  wdog    : Word := 100000#32
  root    : Dword := 0
  evbase  : Dword := 0
  evhead  : Word := 0
  evtail  : Word := 0
  pseq    : Dword := 0
  cseq    : Dword := 0
  l1quota : Word := 1024#32
  vquota  : Word := 256#32
  winbase : Dword := 0
  hint    : BitVec 512 := 0
  aperture : BitVec 512 := 0
  sealed  : List (BitVec 512) := []
  slot    : Nat := 0
  /-- Packets taken that wait for the one in hand, in order (R404). -/
  taken   : List Current := []
  current : Option Current := none
  /-- Events held while the ring is full (R410). -/
  events  : List HeldEvent := []
  /-- The line of the flag that the WAITF in progress waits on (R439). -/
  waiting : Option Nat := none
  deriving DecidableEq, Repr

/-- An entry of a succession table (R380, R382). -/
structure Succ where
  keyHandle  : Word
  keyRect    : Rect
  keyArgs    : List (Option Word)
  handle     : Word
  rect       : Rect
  binds      : List Dword
  args       : List Word
  classes    : Word
  mayspec    : Bool
  delta      : List Word
  confidence : Nat
  unlearned  : Bool
  used       : Nat
  deriving DecidableEq, Repr

/-- A Landing line (R387): the bytes the speculation wrote. -/
structure LandLine where
  mask : BitVec 128
  data : Wide
  deriving DecidableEq, Repr

/-- A speculation (R384 to R390): its launch, Landing lines, read set, pages to mark D at the claim, copies of registers and
LFSR states by cluster, pages whose D bit the claim sets, and the reference count at which its counts reached zero. -/
structure Speculation where
  launch  : Nat
  hint    : Bool
  landing : Table LandLine
  reads   : List Nat
  dirty   : List Nat
  tiles   : List (Nat × Nat × Tile)
  accs    : List (Nat × Nat × Acc)
  lfsrs   : List (Nat × List Word)
  idle    : Option Nat
  /-- Channel words written and not yet visible: channel tag and number (R261, R387). -/
  words   : List (Nat × Nat) := []
  /-- What its phases took off the counts of channel tags (R396). -/
  taken   : List (Nat × Nat) := []
  /-- The register operations and the stations that found no Landing room: they stay held until the claim or the discard (R388, R390). -/
  heldOps : List Nat := []
  heldAt  : List (Nat × Nat) := []
  deriving DecidableEq, Repr

/-- The Ferry state of a queue (R379, R385). -/
structure Ferry where
  table   : List Succ := []
  last    : Option Launch := none
  stopped : Bool := false
  /-- The same for the prediction of the hint slot, until the next hint (R385, R397). -/
  hintStopped : Bool := false
  spec    : Option Speculation := none
  deriving DecidableEq, Repr

/-- A saved region in a save area (R422), kept under the area's address: its cluster, the contexts it holds part of, the region, its
requests and the tokens that had reached a stalled element, what the save wrote into the area, whether the area came from the ring
(R427), and whether it is that of a freeze and not of a drain (R423). -/
structure Saved where
  cluster : Nat
  ctxs    : List Nat
  region  : Region
  reqs    : List MemReq
  due     : List Token
  image   : Bytes
  ring    : Bool
  full    : Bool
  deriving DecidableEq, Repr

/-- A freeze or drain in progress (R421 to R423): its packet's queue, its closure, the areas by cluster, and the units of a drain since
its start; or a closure frozen by R426 and to be resumed by it, `stuck` after a mismatch (R425). -/
structure Freeze where
  id       : Nat
  queue    : Option Nat
  clusters : List Nat
  areas    : List (Nat × Nat)
  ring     : Bool
  drain    : Bool
  start    : Nat
  dtime    : Nat
  saved    : Bool
  stuck    : Bool
  deriving DecidableEq, Repr

/-- The device register block's own registers (R398, R430). -/
structure DevRegs where
  dmode    : Word := 0
  fpbase   : Dword := 0
  fpprod   : Word := 0
  fpcons   : Word := 0
  svbase   : Dword := 0
  svprod   : Word := 0
  svcons   : Word := 0
  devid    : Word := 0
  flagbase : Dword := 0
  egbase   : Dword := 0
  egctl    : Word := 8
  egprod   : Word := 0
  egcons   : Word := 0
  improot  : Dword := 0
  hopage   : Dword := 0
  hoctl    : Word := 0
  hostat   : Word := 0
  honew    : Dword := 0
  route    : Table (BitVec 16) := []
  deriving DecidableEq, Repr

/-- Boot states (R446). -/
inductive BootState where
  | rom | imageCheck | training | ready | recovery
  deriving DecidableEq, Repr

/-- A soft-error log entry (R453). -/
structure LogEntry where
  time : Dword
  die  : Byte
  unit : Byte
  kind : Byte
  deriving DecidableEq, Repr

/-- An XSEND record on its way to another device, with the firing that sent it (R267). -/
structure SpanOut where
  id      : Nat
  device  : Nat
  rec0    : IngressRec
  cluster : Nat
  station : Nat
  tag     : Word
  deriving DecidableEq, Repr

/-- The tollhouse (R444 to R455) and the bring-up registers (R446, R450). -/
structure Tollhouse where
  boot     : BootState := .ready
  cause    : Byte := 0
  fused    : BitVec 4 := (Config.shippedImage.getD 8 0).extractLsb' 0 4
  flash    : List Byte := Config.shippedImage
  running  : List Byte := Config.shippedImage
  staging  : Bytes := []
  stage    : Byte := 0
  reason   : Byte := 0
  committed : Nat := 0
  rcvstat  : Word := 0
  rcvlen   : Word := 0
  keys     : Table (List Byte) := []
  keyseq   : Word := 0
  log      : List LogEntry := []
  unread   : Bool := false
  quote    : List Byte := []
  reading  : Option PowerReading := none
  /-- The power samples of the last 100 ms, newest first (R444). -/
  powers   : List Word := []
  /-- Consecutive samples under the limits of R444 for raising the clock. -/
  quiet    : Nat := 0
  /-- Power is removed: after a trip (R444), or lost (R446). -/
  off      : Bool := false
  answer   : List Byte := []
  /-- The code of the command that the answer is to, and whether a RESET waits for its answer to be read (R454). -/
  answerTo : Byte := 0
  resetDue : Bool := false
  strap    : Bool := Config.smbusStrap
  deriving DecidableEq, Repr

/-- The boundary-scan port (R456): instruction register, whether the board holds reset asserted, and what the register selected shifts out. -/
structure Scan where
  ir      : Byte := 0xFF
  reset   : Bool := false
  data    : Word := 0
  deriving DecidableEq, Repr

/-- What the board does at the management bus and the reset pin (R454, R456): an SMBus block write, with its address, command code, payload and
packet error code; a block read, with its address and code; and the level of reset. -/
inductive BoardAct where
  | smbusWrite (addr : BitVec 7) (code : Byte) (payload : List Byte) (pec : Byte)
  | smbusRead (addr : BitVec 7) (code : Byte)
  | resetPin (held : Bool)
  deriving DecidableEq, Repr

/-- What can be due. A firing, control token, stream command, packet, register write, management command or boundary-scan
code names where its word stands; an event is an instruction without an encoding with what it acts on; what the board does comes to no
instruction by itself. -/
inductive Activity where
  | fire (c st : Nat) (tag : Word)
  | control (c mo : Nat)
  | command (c : Nat)
  | packet (q : Nat)
  | write (off : Nat) (bytes : List Byte)
  | manage (code : Byte) (payload : List Byte)
  | scan (ir : Byte)
  | board (b : BoardAct)
  | event (i : Instr) (x : Site)
  deriving DecidableEq, Repr

/-- A request on its way to another device (R435): its number, the device and the address there, and the ROUTE entry as it stood when the
transfer began (R430). -/
structure SpanReq where
  id     : Nat
  device : Nat
  addr   : Nat
  mask   : Half
  deriving DecidableEq, Repr

/-- The state of the device. -/
structure State where
  ticks    : Nat := 0
  nextId   : Nat := 1
  picks    : List Nat := []
  agenda   : List Activity := []
  cur      : Site := {}
  cycle    : Nat := 0
  refCount : Nat := 0
  fclk     : Nat := 2000
  mem      : Bytes := []
  /-- Physical lines that an uncorrectable soft error has struck and no access or scrub has met (R329). -/
  poisoned : List Nat := []
  /-- The reports of the errors in those lines (R453). -/
  errors   : Table SoftError := []
  regions  : Table Region := []
  dies     : Table Die := []
  dir      : Table DirEntry := []
  reqs     : List MemReq := []
  rids     : Table (List (BitVec 16 × List Value)) := []
  quarry   : Table QuarryHome := []
  pwaits   : List (Nat × Nat × Word) := []
  regs     : DevRegs := {}
  /-- Bytes of ingress records not yet sealed, by 8c + n (R433). -/
  ingressAp : Table (BitVec 128) := []
  queues   : Table Queue := []
  lastQueue : Nat := 63
  contexts : List Ctx := []
  launches : List Launch := []
  objects  : List Obj := []
  /-- Routines registered (R124), the latest first: feature bit, the object that registered it, the routine's object. -/
  routines : List (Nat × Word × Word) := []
  jobs     : List Job := []
  ferry    : Table Ferry := []
  saves    : Table Saved := []
  freezes  : List Freeze := []
  channels : Table Nat := []
  spanDown : List Nat := []
  /-- Accesses on their way to another device: request, device and physical address (R337). -/
  spanReqs : List SpanReq := []
  spanOut  : List SpanOut := []
  /-- The page in hand-over, and its borrower (R440). -/
  lentPage : Option Nat := none
  lentTo   : Nat := 0
  /-- Lines of that page that have come from its new home for an access of the device's own (R338). -/
  farLines : Table Wide := []
  /-- Answers on their way to other devices and to the host: the number of the access, its bytes, and the trap code of a refusal or
  0. -/
  outbox   : List (Nat × List Byte × Nat) := []
  toll     : Tollhouse := {}
  scan     : Scan := {}
  deriving DecidableEq, Repr

/-- The device right after bring-up (R445 step 6, BOOTSTAT.STATE READY): memory zero, every register at its reset value,
every queue disabled, nothing due. -/
def State.reset : State := {}

end Sys2Proof.Machine
end

