-- ==== Sys2Proof/Machine/Record.lean ====
section
/-! DEFINITION. The station address map (R75), the opcode map (R103), the fields of a record as the machine reads them
(R76 to R88), the widths of ports and results (R84), and the FIELD, CLASS and CONSUME checks that one record alone decides
(R77 to R88, R156, R159, R178, R195, R200, R204, R215, R216, R269 to R311). -/

namespace Sys2Proof


/-- What a station address names (R75). -/
inductive Place where
  | station (c : Class)
  | moControl
  | trigger
  | exportPort
  | blockRecord
  | seed
  | control
  | vacant
  deriving DecidableEq, Repr

/-- The station address map (R75). `vacant` is an address outside every populated range. -/
def placeOf (a : Nat) : Place :=
  if a < 0x1000 then .station .pe
  else if a < 0x1100 then .station .ve
  else if a < 0x1200 then .station .mem
  else if a < 0x1280 then .station .conv
  else if a < 0x12C0 then .station .seqr
  else if a < 0x12C4 then .moControl
  else if a < 0x1300 then .vacant
  else if a < 0x1380 then .station .join
  else if a < 0x13C0 then .station .chan
  else if a < 0x1400 then .trigger
  else if a < 0x1800 then .exportPort
  else if a < 0x1900 then .blockRecord
  else if a < 0x1910 then .seed
  else if a < 0x1918 then .station .hostIn
  else if a < 0x1920 then .station .hostOut
  else if a < 0x1FFF then .vacant
  else .control

/-- The class of a station address. -/
def classOf? (a : Nat) : Option Class :=
  match placeOf a with
  | .station c => some c
  | _ => none

/-- The first station address of the element that holds a station: 4 stations in a PE, 8 in the other elements with slots
(R17, R75), and the address itself elsewhere. -/
def elementOf (a : Nat) : Nat :=
  match placeOf a with
  | .station .pe => a - a % 4
  | .station .ve | .station .mem | .station .conv | .station .seqr | .station .join => a - a % 8
  | _ => a

/-- The stations of an element, in slot order. -/
def stationsOf (e : Nat) : List Nat :=
  match placeOf e with
  | .station .pe => (List.range 4).map (e + ·)
  | .station .ve | .station .mem | .station .conv | .station .seqr | .station .join => (List.range 8).map (e + ·)
  | _ => [e]

/-- Matching-store entries of an element (R39). -/
def storeSize (e : Nat) : Nat := if e < 0x1000 then 64 else 32

/-- The classes that may hold an opcode (R103); none for an unassigned code. -/
def classesOf (op : Nat) : List Class :=
  if op = 0x01 ∨ op = 0x03 ∨ op = 0x04 ∨ op = 0x05 ∨ op = 0x08 ∨ op = 0x09 ∨ op = 0x0A then [.pe, .ve]
  else if op ≤ 0x3A ∨ (0x40 ≤ op ∧ op ≤ 0x4A) ∨ (0x50 ≤ op ∧ op ≤ 0x63) then [.pe]
  else if (0x70 ≤ op ∧ op ≤ 0x76) ∨ (0x80 ≤ op ∧ op ≤ 0x87) ∨ (0x90 ≤ op ∧ op ≤ 0x9A) ∨ (0xA0 ≤ op ∧ op ≤ 0xAA)
    ∨ (0xB0 ≤ op ∧ op ≤ 0xB4) ∨ op = 0xE1 ∨ op = 0xE2 ∨ op = 0xE6 ∨ op = 0xE7 then [.mem]
  else if op = 0xAB ∨ op = 0xAC then [.join]
  else if op = 0xB5 ∨ op = 0xB6 then [.chan]
  else if op = 0xB7 then [.hostIn]
  else if op = 0xB8 then [.hostOut]
  else if op = 0xB9 ∨ (0xF2 ≤ op ∧ op ≤ 0xF9) then [.pe]
  else if 0xC0 ≤ op ∧ op ≤ 0xDB then [.ve]
  else if op = 0xE0 ∨ op = 0xE3 ∨ op = 0xE8 then [.mem, .seqr]
  else if op = 0xE4 ∨ op = 0xE5 ∨ (0xE9 ≤ op ∧ op ≤ 0xEC) then [.seqr]
  else if op = 0xF0 ∨ op = 0xF1 then [.conv]
  else []

/-! ## Fields of a record -/

/-- The two action bits (R30). -/
def Action.bits : Action → BitVec 2
  | .consume => 0
  | .sticky => 1
  | .pull => 2
  | .immediate => 3

/-- The action of two bits (R30). -/
def Action.ofBits (b : BitVec 2) : Action :=
  if b = 0 then .consume else if b = 1 then .sticky else if b = 2 then .pull else .immediate

/-- The two port bits of a target (R81). -/
def Port.bits : Port → BitVec 2
  | .a => 0
  | .b => 1
  | .c => 2
  | .p => 3

/-- The port of two bits (R81). -/
def Port.ofBits (b : BitVec 2) : Port :=
  if b = 0 then .a else if b = 1 then .b else if b = 2 then .c else .p

/-- A target field (R81). -/
def Target.ofHalf (h : Half) : Target :=
  { valid := h.getLsbD 15, port := Port.ofBits (h.extractLsb' 13 2), addr := h.extractLsb' 0 13 }

/-- The field of a target (R81). -/
def Target.toHalf (t : Target) : Half := BitVec.ofBool t.valid ++ t.port.bits ++ t.addr

/-- The configuration of port A or B (R85). -/
def PortCfg.ofHalf (h : Half) : PortCfg :=
  { act := Action.ofBits (h.extractLsb' 14 2), fe := h.getLsbD 13, low := h.extractLsb' 0 13 }

/-- The field of a port configuration (R85). -/
def PortCfg.toHalf (p : PortCfg) : Half := p.act.bits ++ BitVec.ofBool p.fe ++ p.low

/-- F5 of a record (R88). -/
def Rec.f5 (r : Rec) : Half := r.c.act.bits ++ r.c.queue ++ r.p.act.bits ++ r.p.queue ++ r.block

/-- A record's fields beside its opcode (R76). -/
def Rec.ofRaw (w : RawRecord) : Rec :=
  { fmt := w.f0.extractLsb' 4 4, flags := w.f0.extractLsb' 0 4,
    t0 := Target.ofHalf w.f1, t1 := Target.ofHalf w.f2,
    a := PortCfg.ofHalf w.f3, b := PortCfg.ofHalf w.f4,
    c := { act := Action.ofBits (w.f5.extractLsb' 14 2), queue := w.f5.extractLsb' 12 2 },
    p := { act := Action.ofBits (w.f5.extractLsb' 10 2), queue := w.f5.extractLsb' 8 2 },
    block := w.f5.extractLsb' 0 8, f6 := w.f6, f7 := w.f7 }

/-- The raw record of an opcode and its fields (R76). -/
def Rec.toRaw (op : BitVec 8) (r : Rec) : RawRecord :=
  { f0 := op ++ r.fmt ++ r.flags, f1 := r.t0.toHalf, f2 := r.t1.toHalf, f3 := r.a.toHalf, f4 := r.b.toHalf,
    f5 := r.f5, f6 := r.f6, f7 := r.f7 }

/-- The opcode of a raw record (R76). -/
def RawRecord.opcode (w : RawRecord) : Nat := (w.f0.extractLsb' 8 8).toNat

/-- One field of a raw record. -/
def RawRecord.field (w : RawRecord) (n : Nat) : Half :=
  match n with
  | 0 => w.f0 | 1 => w.f1 | 2 => w.f2 | 3 => w.f3 | 4 => w.f4 | 5 => w.f5 | 6 => w.f6 | _ => w.f7

/-- A raw record with one field replaced whole (R65). -/
def RawRecord.withField (w : RawRecord) (n : Nat) (v : Half) : RawRecord :=
  match n with
  | 0 => { w with f0 := v } | 1 => { w with f1 := v } | 2 => { w with f2 := v } | 3 => { w with f3 := v }
  | 4 => { w with f4 := v } | 5 => { w with f5 := v } | 6 => { w with f6 := v } | _ => { w with f7 := v }

/-- The 32-bit immediate {F7, F6} (R87). -/
def Rec.imm32 (r : Rec) : Word := r.f7 ++ r.f6

/-- The selector bits F3[10:0] (R85). -/
def Rec.sel (r : Rec) : Nat := (r.a.low.extractLsb' 0 11).toNat

/-- The source format or type code F4[3:0] (R78). -/
def Rec.src (r : Rec) : Nat := (r.b.low.extractLsb' 0 4).toNat

/-- The rounding code F0[3:1] (R79). -/
def Rec.rnd (r : Rec) : Nat := r.flags.toNat / 2

/-- The order code F0[3:2] (R79). -/
def Rec.order (r : Rec) : Nat := r.flags.toNat / 4

/-- The sequence fields PRED, OWN and SUCC of F7 (R91). -/
def Rec.pred (r : Rec) : BitVec 5 := r.f7.extractLsb' 10 5

def Rec.own (r : Rec) : BitVec 5 := r.f7.extractLsb' 5 5

def Rec.succ (r : Rec) : BitVec 5 := r.f7.extractLsb' 0 5

/-- REG of a memory-port form (R287). -/
def Rec.reg (r : Rec) : BitVec 7 := r.f7.extractLsb' 0 7

/-- REG1 of a sequencer form (R287). -/
def Rec.reg1 (r : Rec) : BitVec 7 := r.f6.extractLsb' 0 7

/-- REG2 of a sequencer form (R287). -/
def Rec.reg2 (r : Rec) : BitVec 7 := r.f6.extractLsb' 8 7

/-- Lanes of a 1,024-bit token by format code (R269). -/
def lanesOf (fmt : Nat) : Nat :=
  match fmt with
  | 0 => 32 | 1 => 64 | 2 => 64 | 3 => 16 | 4 => 128 | 5 => 128 | _ => 256

/-! ## Ports and widths -/

/-- Token widths (R27). -/
inductive Width where
  | narrow | wide
  deriving DecidableEq, Repr

/-- Opcodes that take a binary operand's scalar form BS in F0[0] (R269). -/
def hasBS (op : Nat) : Bool := [0xC0, 0xC1, 0xC2, 0xC3, 0xC4, 0xC5, 0xC8].contains op

/-- Opcodes that name their source format in F4[3:0], port B immediate (R78). -/
def namesSource (op : Nat) : Bool := [0x60, 0x61, 0x62, 0xD5, 0xD6, 0xD7, 0xF0].contains op

/-- TOK of TLD and TST (R293). -/
def isTok (op : Nat) (r : Rec) : Bool := (op == 0xE1 || op == 0xE2) && r.flags.getLsbD 0

/-- Whether an opcode reads port B. -/
def readsB (op : Nat) (r : Rec) : Bool :=
  !(namesSource op
    || [0x00, 0x01, 0x07, 0x09, 0x0A, 0x0B, 0x0C, 0x1B, 0x24, 0x2A, 0x2B, 0x2C, 0x2D, 0x3A,
        0x57, 0x58, 0x5B, 0x5C, 0x5D, 0x5E, 0x5F, 0x63].contains op
    || [0x70, 0x72, 0x74, 0x75, 0x76, 0x80, 0x82, 0x84, 0x85, 0x86, 0x87, 0xA4, 0xAA, 0xB7, 0xB8].contains op
    || [0xC6, 0xC7, 0xCA, 0xCB, 0xCC, 0xCD, 0xCE, 0xCF, 0xD0, 0xD1, 0xD3, 0xD9, 0xDA, 0xDB].contains op
    || [0xE0, 0xE3, 0xE4, 0xE5, 0xE8, 0xE9, 0xF3, 0xF6].contains op
    || (op == 0xD4 && r.sel % 8 == 5))

/-- Whether an opcode reads port C, used or not. -/
def readsC (op : Nat) (r : Rec) : Bool :=
  [0x04, 0x12, 0x13, 0x2F, 0x53, 0x54, 0x99, 0xC3, 0xC9, 0xD6, 0xD7].contains op
    || ((op == 0xE1 || op == 0xE2) && !isTok op r)

/-- Opcodes whose port C may be left unused: ADDC, SUBB, VQUANT, VDEQ, TLD, TST. -/
def optionalC (op : Nat) : Bool := [0x12, 0x13, 0xD6, 0xD7, 0xE1, 0xE2].contains op

/-- Whether a port that is read takes wide tokens (R84, R160, R228, R232, R269, R285, R286, R297). -/
def portIsWide (cls : Class) (op : Nat) (r : Rec) (port : Port) : Bool :=
  match cls, port with
  | _, .p => false
  | .ve, .a => !(op == 0x0A || op == 0xDA || op == 0xDB)
  | .ve, .b => !(op == 0x03 || op == 0x08 || (hasBS op && r.flags.getLsbD 0))
  | .ve, .c => !(op == 0x04 || op == 0xD6 || op == 0xD7)
  | .mem, .a => op == 0xE1 && isTok op r
  | .mem, .b => op == 0x73 || op == 0x83
  | .conv, .a => true
  | _, _ => false

/-- The width of a port a station reads; none for a port it does not read. -/
def portWidth (cls : Class) (op : Nat) (r : Rec) (port : Port) : Option Width :=
  let used : Bool :=
    match port with
    | .a => true
    | .b => readsB op r
    | .c => readsC op r && r.c.act != .immediate
    | .p => r.p.act != .immediate
  if used then some (if portIsWide cls op r port then .wide else .narrow) else none

/-- The width of what a station sends to target 0 or, with `second`, to target 1; none for an opcode that sends nothing
there (R102, R155, R160, R167, R171, R177, R207, R281, R285, R297). -/
def resultWidth (cls : Class) (op : Nat) (r : Rec) (second : Bool) : Option Width :=
  if op = 0x00 ∨ op = 0x09 ∨ op = 0x0F ∨ op = 0xF2 then none
  else match cls with
    | .ve =>
      if op = 0x0A then (if second then some .narrow else none)
      else if second ∧ (op = 0x05 ∨ (op = 0xD6 ∧ (r.sel / 4) % 4 ≠ 0)) then some .narrow
      else some .wide
    | .mem => if op = 0x72 ∨ op = 0x82 ∨ (op = 0xE2 ∧ isTok op r) then some .wide else some .narrow
    | .conv => if second ∧ op = 0xF0 then some .narrow else some .wide
    | _ => if op = 0x0A ∧ ¬ second then none else some .narrow

/-! ## Checks of one record -/

/-- Accepted type nibbles of groups 0x1 to 0x4 (R178). -/
def nibbleOk (op n : Nat) : Bool :=
  if [0x10, 0x11, 0x14, 0x20, 0x21, 0x22, 0x23, 0x24, 0x25, 0x26, 0x27, 0x28, 0x29, 0x2A, 0x2B, 0x2C, 0x2D, 0x30,
      0x31].contains op then [0x0, 0x2, 0x4, 0x6, 0x8, 0xA, 0x5, 0x7, 0x9, 0xB].contains n
  else if [0x15, 0x1C, 0x1D, 0x1B, 0x32, 0x33].contains op then [0x0, 0x4, 0x8, 0x5, 0x9].contains n
  else if [0x16, 0x1E, 0x1F, 0x34, 0x35].contains op then [0x2, 0x6, 0xA, 0x7, 0xB].contains n
  else if [0x12, 0x13, 0x40].contains op then [0x0, 0x2, 0x4, 0x6, 0x8, 0xA].contains n
  else if [0x17, 0x19].contains op then [0x0, 0x4, 0x8].contains n
  else if [0x18, 0x1A].contains op then [0x2, 0x6, 0xA].contains n
  else if [0x2E, 0x2F].contains op then [0x0, 0x2].contains n
  else if op = 0x43 then [0x4, 0x6].contains n
  else if op = 0x44 then [0x8, 0xA].contains n
  else if op = 0x45 then [0x8, 0xA, 0x4, 0x6].contains n
  else if [0x47, 0x48, 0x49, 0x4A].contains op then [0x5, 0x7, 0x9, 0xB].contains n
  else n == 0

/-- Unpacked integer type codes (R200, R227). -/
def isIntCode (n : Nat) : Bool := [0x0, 0x2, 0x4, 0x6, 0x8, 0xA].contains n

/-- F0 of the scalar floating groups (R195, R200). -/
def floatF0Ok (op : Nat) (r : Rec) : Bool :=
  let n := r.fmt.toNat
  let x2 := r.flags.getLsbD 0
  decide (r.rnd ≤ 4) &&
  (if op = 0x60 then decide (n ≤ 2) && !x2
   else if op = 0x61 then isIntCode n && !x2
   else if op = 0x62 then decide (n ≤ 2) && (!x2 || n != 0)
   else decide (n ≤ 2) && (!x2 || n != 0)
     && (! [0x55, 0x56, 0x57, 0x58, 0x59, 0x5E].contains op || r.rnd == 0))

/-- The source code in F4 of an opcode that names one (R200, R279, R281, R283, R285). -/
def sourceOk (op : Nat) (r : Rec) : Bool :=
  let n := r.fmt.toNat
  if op = 0x60 then isIntCode r.src
  else if op = 0x61 then decide (r.src ≤ 2)
  else if op = 0x62 then decide (r.src ≤ 2) && r.src != n && (!r.flags.getLsbD 0 || r.src != 0)
  else if op = 0xD5 ∨ op = 0xF0 then decide (r.src ≤ 5) && r.src != n
  else if op = 0xD6 then decide (r.src ≤ 2)
  else if op = 0xD7 then decide (4 ≤ r.src) && decide (r.src ≤ 6)
  else true

/-- The accepted order codes (R216, R230, R350). -/
def orderOk (op : Nat) (r : Rec) : Bool :=
  let o := r.order
  if [0x70, 0x72, 0x80, 0x82].contains op then decide (o ≤ 1)
  else if [0x71, 0x73, 0x81, 0x83].contains op then o == 0 || o == 2
  else if op = 0x75 then o != 0
  else if 0x90 ≤ op ∧ op ≤ 0x9A then op == 0x99 || !r.flags.getLsbD 0 || o == 0 || o == 2
  else o == 0

/-- F0 of groups 0x7 to 0x9 (R216, R227 to R240, R350). -/
def memF0Ok (op : Nat) (r : Rec) : Bool :=
  let n := r.fmt.toNat
  let low := r.flags.toNat % 4
  let o := r.order
  orderOk op r &&
  (if [0x70, 0x71, 0x80, 0x81].contains op then isIntCode n
   else if op = 0x9A then decide (n ≤ 2)
   else if op = 0x91 ∨ op = 0x92 then n == 0
   else if op = 0x93 ∨ op = 0x94 then n == 2
   else if 0x90 ≤ op then n == 0 || n == 2
   else n == 0) &&
  (if op = 0x99 then low == 0 || (low == 1 && (o == 1 || o == 3))
   else if op = 0x9A then decide (low ≤ 1) || n != 0
   else if 0x90 ≤ op ∨ op ≥ 0x80 then decide (low ≤ 1)
   else if op = 0x76 then decide (low ≤ 2)
   else low == 0)

/-- F0 of groups 0xC and 0xD (R269, R278, R279, R281, R283). -/
def vectorF0Ok (op : Nat) (r : Rec) : Bool :=
  let n := r.fmt.toNat
  let b0 := r.flags.getLsbD 0
  let rounds := [0xC0, 0xC1, 0xC2, 0xC3, 0xCA, 0xCB, 0xCC, 0xCD, 0xCE, 0xCF, 0xD5, 0xD6, 0xD7].contains op
    || ((op == 0xD0 || op == 0xD1) && r.sel % 4 == 0) || (op == 0xDA && !b0)
  (if op = 0xD5 then decide (n ≤ 5)
   else if op = 0xD6 then decide (4 ≤ n) && decide (n ≤ 6)
   else if op = 0xD7 then decide (n ≤ 2)
   else if op = 0xD8 ∨ op = 0xD9 then decide (n ≤ 6)
   else decide (n ≤ 3)) &&
  decide (r.rnd ≤ 4) && (rounds || r.rnd == 0) && (!b0 || hasBS op || op == 0xDA)

/-- F0 of group 0xE (R293, R301, R307). -/
def tileF0Ok (op : Nat) (r : Rec) : Bool :=
  let n := r.fmt.toNat
  let f := r.flags.toNat
  if op = 0xE9 then decide (n ≤ 5) && decide (r.rnd ≤ 3) && f % 2 == 0
  else n == 0 &&
    (if op = 0xE1 then decide (f < 8) && f % 4 != 3
     else if op = 0xE2 then [0, 1, 4, 5].contains f
     else if op = 0xE6 ∨ op = 0xE7 then [0, 4].contains f
     else if op = 0xEA then true
     else f == 0)

/-- The opcodes whose F0[3:1] is a rounding field with a code for .rsr (R79). -/
def hasRounding (op : Nat) : Bool :=
  (decide (0x50 ≤ op) && decide (op < 0x70)) || (decide (0xC0 ≤ op) && decide (op < 0xE0)) || op == 0xF0

/-- .rsr is legal on VE stations alone, whatever the opcode (R79). -/
def rsrOk (at_ : Class) (op : Nat) (r : Rec) : Bool := !hasRounding op || r.rnd != 4 || at_ == .ve

/-- F0 of an assigned opcode (R80). -/
def f0Ok (op : Nat) (r : Rec) : Bool :=
  let n := r.fmt.toNat
  let f := r.flags.toNat
  if op = 0x00 then n == 0 && f == 1
  else if op = 0x0D then n == 0 && [1, 2, 3].contains f
  else if op < 0x10 then n == 0 && f == 0
  else if op < 0x50 then nibbleOk op n && f == 0
  else if op < 0x70 then floatF0Ok op r
  else if op < 0xA0 then memF0Ok op r
  else if op < 0xC0 then
    n == 0 && (if op = 0xA4 ∨ op = 0xB8 then decide (f ≤ 1) else if op = 0xAB then decide (f ≤ 7) else f == 0)
  else if op < 0xE0 then vectorF0Ok op r
  else if op < 0xF0 then tileF0Ok op r
  else if op = 0xF0 then decide (n ≤ 5) && decide (r.rnd ≤ 4) && f % 2 == 0
  else if op = 0xF1 then decide (n ≤ 5) && f == 0
  else n == 0 && f == 0

/-- Whether the fields of an opcode on a memory port read F6 sign-extended (R87). -/
def memImmediate (cls : Class) (op : Nat) : Bool :=
  cls == .mem && ((0x70 ≤ op && op < 0xB0) || (0xE0 ≤ op && op < 0xF0))

/-- The value an immediate port reads (R87). -/
def immediateOf (cls : Class) (op : Nat) (r : Rec) : Word :=
  if memImmediate cls op then r.f6.signExtend 32 else r.imm32

/-- Selector rules of F3[10:0] (R273, R275, R277 to R281, R283, R310). -/
def selectorOk (op : Nat) (r : Rec) : Bool :=
  let s := r.sel
  let n := lanesOf r.fmt.toNat
  let m := lanesOf r.src
  if op = 0xC8 then s % 16 != 0
  else if op = 0xD0 ∨ op = 0xD1 then s % 4 != 3
  else if op = 0xD4 then
    decide (s % 8 ≤ 5) && (if s % 8 = 4 then decide (s / 16 ≤ n) else s / 16 == 0)
  else if op = 0xD3 then decide (s < 64) && decide (s < n)
  else if op = 0xD5 ∨ op = 0xF0 then
    if m ≤ n then s % 8 == 0 else decide (s % 8 < m / n)
  else if op = 0xD8 then s % 4 != 3
  else if op = 0xD9 then s % 4 != 3 && decide ((s / 4) % 8 < 2 ^ (s % 4 + 1))
  else if op = 0xD6 then
    let mode := (s / 4) % 4
    mode != 3 && (mode != 0 || (r.fmt.toNat != 6 && r.c.act == .immediate))
      && (mode == 0 || r.c.act != .immediate)
      && (s % 4 == 0 || (mode == 2 && r.fmt.toNat == 6))
  else if op = 0xD7 then
    decide (s % 8 < m / n) && ((s / 8) % 2 == 1) == (r.c.act != .immediate) && (r.src != 6 || (s / 8) % 2 == 1)
  else if op = 0xEC then
    let dx := (s / 16) % 16
    let dy := s % 16
    dx != 8 && dy != 8 && (dx != 0 || dy != 0)
  else true

/-- Whether a register number names a tile, or an accumulator (R287). -/
def isTile (g : BitVec 7) : Bool := decide (g.toNat ≤ 0x2F)

def isAcc (g : BitVec 7) : Bool := decide (0x40 ≤ g.toNat) && decide (g.toNat ≤ 0x4F)

/-- The register fields of group 0xE (R287). -/
def registersOk (cls : Class) (op : Nat) (r : Rec) : Bool :=
  let g := if cls = .mem then r.reg else r.reg1
  if op = 0xE0 then isTile g || isAcc g
  else if op = 0xE1 ∨ op = 0xE2 ∨ op = 0xE3 then isTile g
  else if op = 0xE6 ∨ op = 0xE7 ∨ op = 0xE8 then isAcc g
  else if op = 0xE4 ∨ op = 0xE5 then isTile r.reg1 && isTile r.reg2
  else if op = 0xE9 then isAcc r.reg1 && isTile r.reg2
  else true

/-- An immediate operand B in its range (R168, R204, R205, R210, R211, R252, R308). -/
def immediateOk (op : Nat) (r : Rec) : Bool :=
  let b := r.imm32.toNat
  if op = 0x06 then
    let d := b / 256 % 2 ^ 20
    decide (0 < d) && decide (d < 2 ^ 18)
  else if op = 0xF4 ∨ op = 0xF5 then [0, 2, 3, 4, 5].contains b || (decide (0x100 ≤ b) && decide (b ≤ 0x2FF))
  else if op = 0xF7 then decide (b ≤ 7)
  else if op = 0xF8 then decide (b ≤ 511)
  else if op = 0xAB then b % 2 ^ 16 != 0
  else if op = 0xEB then b % 256 != 0 && decide (b < 2 ^ 27)
  else true

/-- Opcodes whose port B must be immediate (R78, R156). -/
def needsImmediateB (op : Nat) : Bool :=
  namesSource op || [0x06, 0xF9, 0x0E, 0xF4, 0xF5, 0xF7, 0xF8].contains op

/-- The fields of F3 at fault, F3 alone (R86, R156, R269, R287), of an opcode as its class `cls` has it; `held` says that its station is of
that class (R287). The model's choice (log 97): a FAN whose port A is sticky or immediate, and an ILLEGAL whose port A is not consume, for
which R102, R161 and the table of R156 state no fate, are accepted and fire. -/
def f3Ok (cls : Class) (held : Bool) (op : Nat) (r : Rec) : Bool :=
  let memForm := cls == .mem
  let hasScope := memForm && !([0x74, 0xE0, 0xE3, 0xE8].contains op || isTok op r)
  (!memForm || r.a.act != .pull) &&
  (!hasScope || decide ((r.sel / 32) % 8 ≤ 4)) &&
  (op != 0x05 || r.a.act == .consume) &&
  (r.a.act != .immediate || !portIsWide cls op r .a) &&
  (!(held && cls == .seqr && op < 0xEA) || r.a.act != .immediate) &&
  selectorOk op r

/-- The fields of F4 at fault (R78, R87, R156, R215, R269, R287, and the immediate's range), of an opcode as its class has it; R215 binds
opcodes held in memory ports alone. The model's choice (log 121): an unread port whose action is not immediate, for which R87 states no
fate, is FIELD; its other bits are ignored (R4). -/
def f4Ok (cls : Class) (held : Bool) (op : Nat) (r : Rec) : Bool :=
  if namesSource op then r.b.act == .immediate && sourceOk op r
  else if !readsB op r then r.b.act == .immediate
  else
    (!needsImmediateB op || r.b.act == .immediate) &&
    (op != 0x05 || r.b.act == .consume) &&
    (r.b.act != .immediate ||
      (!portIsWide cls op r .b && immediateOk op r &&
       (r.a.act != .immediate || !((held && memImmediate cls op) || [0xEA, 0xEB, 0xEC].contains op))))

/-- The fields of F5 at fault (R87, R88, R156). The model's choice (log 121): an unread port C whose action is not immediate is FIELD. -/
def f5Ok (op : Nat) (r : Rec) : Bool :=
  r.c.act != .pull && r.p.act != .pull &&
  (if readsC op r then optionalC op || r.c.act != .immediate else r.c.act == .immediate)

/-- The lowest field of a record with a value that FIELD rejects, for an assigned opcode as its class `cls` has it, in a station of class
`at_`; none where the record passes. The rules of an element's own stations, which name its register fields (R287), bind where the opcode
is held there. -/
def fieldFaultAt (cls at_ : Class) (op : Nat) (r : Rec) : Option Nat :=
  let held := cls == at_
  if !f0Ok op r || !rsrOk at_ op r then some 0
  else if !f3Ok cls held op r then some 3
  else if !f4Ok cls held op r then some 4
  else if !f5Ok op r then some 5
  else if held && !registersOk cls op r then some (if cls = .mem then 7 else 6)
  else none

/-- The lowest field of a record with a value that FIELD rejects, given its class and an assigned opcode; none where the
record passes. -/
def fieldFault (cls : Class) (op : Nat) (r : Rec) : Option Nat := fieldFaultAt cls cls op r

/-- Whether some port is a consume port (R34). -/
def hasConsume (op : Nat) (r : Rec) : Bool :=
  r.a.act == .consume || (readsB op r && r.b.act == .consume) || (readsC op r && r.c.act == .consume)
    || r.p.act == .consume

/-- A record that its own fields alone make legal in a station of the class. -/
def recordOk (cls : Class) (op : Nat) (r : Rec) : Bool :=
  (classesOf op).contains cls && (fieldFault cls op r).isNone && hasConsume op r

/-! ## Block records (R93) and fixed records (R94) -/

/-- A block record as the machine reads it (R41, R93). -/
structure Block where
  count  : Nat
  window : Nat
  exits  : Nat
  mask   : Word
  deriving DecidableEq, Repr

/-- The block of a raw record (R93). -/
def Block.ofRaw (w : RawRecord) : Block :=
  { count := (w.f0.extractLsb' 8 5).toNat, window := (w.f0.extractLsb' 4 4).toNat,
    exits := (w.f1.extractLsb' 0 8).toNat, mask := w.f3 ++ w.f2 }

/-- The lowest field of a block record that breaks the conditions of R93: F0 for the count and W, F2 and F3 for the store mask. -/
def Block.fault (b : Block) : Option Nat :=
  let bad := fun (n : Nat) => b.mask.getLsbD n && (n == 0 || decide (b.count < n))
  if 30 ≤ b.count ∨ b.window = 0 then some 0
  else if (List.range 16).any bad then some 2
  else if (List.range 16).any (fun n => bad (n + 16)) then some 3
  else none

/-- F0 enable of a fixed element's record (R94). -/
def RawRecord.enabled (w : RawRecord) : Bool := w.f0.getLsbD 0

/-- dx and dy of an export port (R94). -/
def RawRecord.offsets (w : RawRecord) : BitVec 4 × BitVec 4 := (w.f4.extractLsb' 4 4, w.f4.extractLsb' 0 4)

/-- The lowest field of a fixed element's record with a value that FIELD rejects (R94, R95, R105). The model's choice (log 120): an action
other than consume, for which R94 states no fate, is FIELD. -/
def fixedFault (p : Place) (w : RawRecord) : Option Nat :=
  if w.f0.toNat ≥ 2 then some 0
  else if p != .seed && w.f3.extractLsb' 14 2 != 0 then some 3
  else if p == .exportPort && (w.offsets.1 == 8 || w.offsets.2 == 8) then some 4
  else none

end Sys2Proof
end

