-- ==== Sys2Proof/Machine/Validate.lean ====
section
/-! DEFINITION. The whole-configuration checks of a stream (R27, R82, R90, R92, R93, R96, R168, R171, R176, R212) and the
stream status word (R96). -/

namespace Sys2Proof

/-- Stream status codes (R96). -/
inductive StreamCode where
  | ok | checksum | order | address | field | opcode | klass | target | sequence | block | consume | collision
  deriving DecidableEq, Repr

/-- The number of a stream status code (R96). -/
def StreamCode.number : StreamCode → Nat
  | .ok => 0x00 | .checksum => 0x01 | .order => 0x02 | .address => 0x03 | .field => 0x04 | .opcode => 0x05
  | .klass => 0x06 | .target => 0x07 | .sequence => 0x08 | .block => 0x09 | .consume => 0x0A | .collision => 0x0B

/-- The status word of R96. -/
def statusWord (addr fld : Nat) (code : StreamCode) : Word :=
  BitVec.ofNat 13 addr ++ BitVec.ofNat 3 fld ++ (0 : BitVec 8) ++ BitVec.ofNat 8 code.number

/-- The record at an address of a configuration: none where the station is empty or the fixed element not enabled
(R76, R94). -/
def lookup (cfg : Table RawRecord) (a : Nat) : Option RawRecord :=
  match placeOf a, cfg.get? a with
  | .station _, some w => if w.f0 = 0 then none else some w
  | .blockRecord, some w => if w.f0 = 0 then none else some w
  | .control, _ | .vacant, _ => none
  | _, some w => if w.enabled then some w else none
  | _, none => none

/-- The block record of an id, written when its F0 is not zero (R93). -/
def blockOf? (cfg : Table RawRecord) (id : Nat) : Option Block :=
  (lookup cfg (0x1800 + id)).map Block.ofRaw

/-- The configuration of port A or B of a record. -/
def portAction (r : Rec) : Port → Action
  | .a => r.a.act
  | .b => r.b.act
  | .c => r.c.act
  | .p => r.p.act

/-- The width a port of an address takes as a target (R82, R84); none where R82 accepts no token there. -/
def acceptsAt (cfg : Table RawRecord) (a : Nat) (port : Port) : Option Width :=
  match placeOf a, lookup cfg a with
  | .station .hostIn, _ => none
  | .station c, some w =>
    let r := Rec.ofRaw w
    if portAction r port = .immediate then none else portWidth c w.opcode r port
  | .moControl, some _ | .trigger, some _ | .exportPort, some _ => if port = .a then some .narrow else none
  | _, _ => none

/-- Whether a target field is one that R81 and R82 accept for a result of the given width. -/
def targetOk (cfg : Table RawRecord) (t : Target) (w : Option Width) : Bool :=
  !t.valid || (w.isSome && acceptsAt cfg t.addr.toNat t.port == w)

/-- Whether a producer address is one that R82 accepts for a pull port of the given width. -/
def producerOk (cfg : Table RawRecord) (a : Nat) (w : Option Width) : Bool :=
  match classOf? a, lookup cfg a with
  | some c, some rec =>
    [Class.pe, .ve, .mem, .conv, .seqr, .join, .chan].contains c && w.isSome &&
      (resultWidth c rec.opcode (Rec.ofRaw rec) false == w || resultWidth c rec.opcode (Rec.ofRaw rec) true == w)
  | _, _ => false

/-- Opcodes that write memory, for the store mask (R92). -/
def storeMaskOp (op : Nat) : Bool :=
  op == 0x71 || op == 0x73 || (0x90 ≤ op && op ≤ 0x9A) || [0xA0, 0xA1, 0xA2, 0xA3, 0xA5].contains op

/-- The wave-ordered operations: group 0x7, and atomics and quarry operations in a block with memory operations (R219). -/
def waveOrdered (cfg : Table RawRecord) (op : Nat) (r : Rec) : Bool :=
  (0x70 ≤ op && op ≤ 0x76) ||
    (((0x90 ≤ op && op ≤ 0x9A) || (0xA0 ≤ op && op ≤ 0xA5)) &&
      match blockOf? cfg r.block.toNat with
      | some b => decide (0 < b.count)
      | none => false)

/-- The OWN numbers of the wave-ordered stations of a block, by station (R92). -/
def ownersOf (cfg : Table RawRecord) (blk : BitVec 8) : List (Nat × BitVec 5) :=
  cfg.filterMap fun (a, w) =>
    let r := Rec.ofRaw w
    if classOf? a = some .mem ∧ w.f0 ≠ 0 ∧ r.block = blk ∧ waveOrdered cfg w.opcode r then some (a, r.own) else none

/-- The conditions of R92 on one wave-ordered station. -/
def sequenceOk (cfg : Table RawRecord) (a op : Nat) (r : Rec) (b : Block) : Bool :=
  let own := r.own.toNat
  let pred := r.pred.toNat
  let succ := r.succ.toNat
  decide (1 ≤ own) && decide (own ≤ b.count) && pred != 30 && succ != 30
    && (pred == 31 || decide (pred < own)) && (succ == 31 || succ == 0 || decide (own < succ))
    && b.mask.getLsbD own == storeMaskOp op
    && (ownersOf cfg r.block).all (fun (o, n) => o == a || n != r.own)

/-- The target faults of a station: codes with the field reported (R82, R102, R167, R171, R176, R177, R207). -/
def targetFaults (cfg : Table RawRecord) (cls : Class) (op : Nat) (r : Rec) : List Nat :=
  let t0Bad :=
    if op = 0x0F then r.t0.toHalf != 0
    else if op = 0x0A then
      !(r.t0.valid && (match classOf? r.t0.addr.toNat, lookup cfg r.t0.addr.toNat with
        | some .pe, some w | some .ve, some w => portAction (Rec.ofRaw w) r.t0.port == .sticky
        | _, _ => false))
    else !targetOk cfg r.t0 (resultWidth cls op r false)
  let t1Bad :=
    if op = 0x0F then r.t1.toHalf != 0 else !targetOk cfg r.t1 (resultWidth cls op r true)
  let pullBad (pc : PortCfg) (port : Port) : Bool :=
    pc.act == .pull && (portWidth cls op r port).isSome && !producerOk cfg pc.low.toNat (portWidth cls op r port)
  let linkBad :=
    op == 0x0E && r.b.act == .immediate &&
      !(r.imm32.getLsbD 15 &&
        acceptsAt cfg (r.imm32.extractLsb' 0 13).toNat (Port.ofBits (r.imm32.extractLsb' 13 2)) == some .narrow)
  (if t0Bad then [1] else []) ++ (if t1Bad then [2] else []) ++ (if pullBad r.a .a then [3] else [])
    ++ (if pullBad r.b .b || linkBad then [4] else [])

/-- The block faults of a station (R90, R168, R212). -/
def blockFaults (cfg : Table RawRecord) (op : Nat) (r : Rec) : List Nat :=
  let named := (op == 0x06 || op == 0xF9) && r.b.act == .immediate
  (if named && (blockOf? cfg (r.imm32.toNat % 256)).isNone then [4] else [])
    ++ (if (blockOf? cfg r.block.toNat).isNone then [5] else [])

/-- The FIELD fault of a station of an assigned opcode: that of its class, or, on a class that does not hold the opcode, one that the
opcode has by the rules of every class that does, but for those of the stations of such a class (R79, R96, R104, R215, R287). -/
def fieldFaults (cls : Class) (op : Nat) (r : Rec) : List Nat :=
  if (classesOf op).contains cls then (fieldFault cls op r).toList
  else
    let faults := (classesOf op).map (fun k => fieldFaultAt k cls op r)
    if faults.all (fun f => f.isSome) then (faults.filterMap id).take 1 else []

/-- Every fault of one address of a configuration, as status code and field (R96). -/
def recordFaults (cfg : Table RawRecord) (a : Nat) (w : RawRecord) : List (StreamCode × Nat) :=
  match placeOf a with
  | .blockRecord => if w.f0 = 0 then [] else (Block.ofRaw w).fault.toList.map (fun f => (.block, f))
  | .station cls =>
    if w.f0 = 0 then []
    else
      let op := w.opcode
      let r := Rec.ofRaw w
      if (classesOf op).isEmpty then [(.opcode, 0)] ++ (blockFaults cfg op r).map (fun f => (.block, f))
      else
        (fieldFaults cls op r).map (fun f => (.field, f))
        ++ (if (classesOf op).contains cls then [] else [(.klass, 0)])
        ++ (targetFaults cfg cls op r).map (fun f => (.target, f))
        ++ (match blockOf? cfg r.block.toNat with
            | some b => if waveOrdered cfg op r && !sequenceOk cfg a op r b then [(.sequence, 7)] else []
            | none => [])
        ++ (blockFaults cfg op r).map (fun f => (.block, f))
        ++ (if hasConsume op r then [] else [(.consume, 3)])
  | .moControl | .trigger | .exportPort | .seed =>
    (match fixedFault (placeOf a) w with | some f => [(.field, f)] | none => [])
    ++ (if w.enabled && placeOf a != .trigger && !targetOk cfg (Target.ofHalf w.f1) (some .narrow) then [(.target, 1)]
        else [])
    ++ (if w.enabled && placeOf a == .seed && !targetOk cfg (Target.ofHalf w.f2) (some .narrow) then [(.target, 2)]
        else [])
    ++ (if w.enabled && (blockOf? cfg (w.f5.toNat % 256)).isNone then [(.block, 5)] else [])
  | _ => []

/-- The fault with the lowest code, then the lowest field. -/
def lowestFault : List (StreamCode × Nat) → Option (StreamCode × Nat)
  | [] => none
  | (c, f) :: rest =>
    match lowestFault rest with
    | none => some (c, f)
    | some (d, g) => if c.number < d.number ∨ (c = d ∧ f ≤ g) then some (c, f) else some (d, g)

/-- The status word of a whole configuration after a good checksum: OK, or the lowest faulting address with the lowest code
there (R96). `relative` holds the pattern writes whose relative target left the grid (R74), `written` and `held` decide
COLLISION (R98). -/
def configStatus (cfg : Table RawRecord) (relative : List (Nat × Nat)) (written held : List Nat) : Word :=
  let go := fun (acc : Option Word) (e : Nat × RawRecord) =>
    match acc with
    | some _ => acc
    | none =>
      let faults := recordFaults cfg e.1 e.2
        ++ (relative.filter (fun p => p.1 == e.1)).map (fun p => (StreamCode.target, p.2))
        ++ (if written.contains e.1 && held.contains e.1 then [(StreamCode.collision, 0)] else [])
      (lowestFault faults).map (fun (c, f) => statusWord e.1 f c)
  (cfg.foldl go none).getD 0

end Sys2Proof
end

