-- ==== Sys2Proof/Machine/Ops.lean ====
section
/-! DEFINITION. The named operations over the state: sparse memory, regions, tags, counts, contexts, what is due, tokens
and credits (R27 to R44, R61, R81), physical memory and its copies (R313, R330, R345), events (R410), and taking a trap
(R412, R414) with the return from it (R208, R414). -/

namespace Sys2Proof

/-! ## Sparse bytes -/

/-- The byte at an address. -/
def Bytes.get : Bytes → Nat → Byte
  | [], _ => unlistedByte
  | (b, v) :: rest, a => if a = b then v else Bytes.get rest a

/-- The bytes with one byte written, in canonical form. -/
def Bytes.put : Bytes → Nat → Byte → Bytes
  | [], a, v => if v = unlistedByte then [] else [(a, v)]
  | (b, w) :: rest, a, v =>
    if a < b then (if v = unlistedByte then (b, w) :: rest else (a, v) :: (b, w) :: rest)
    else if a = b then (if v = unlistedByte then rest else (a, v) :: rest)
    else (b, w) :: Bytes.put rest a v

/-- The n bytes from an address. -/
def Bytes.range (m : Bytes) (a n : Nat) : List Byte := (List.range n).map (fun i => m.get (a + i))

/-- The bytes with a run of bytes written from an address. -/
def Bytes.putRange : Bytes → Nat → List Byte → Bytes
  | m, _, [] => m
  | m, a, b :: rest => Bytes.putRange (m.put a b) (a + 1) rest

/-- Byte i of a wide value (R227). -/
def wideByte (v : Wide) (i : Nat) : Byte := v.extractLsb' (8 * i) 8

/-- A wide value with byte i replaced. -/
def setWideByte (v : Wide) (i : Nat) (b : Byte) : Wide :=
  (v &&& ~~~((0xFF : Wide) <<< (8 * i))) ||| ((b.zeroExtend 1024) <<< (8 * i))

/-- The wide value of up to 128 little-endian bytes. -/
def wideOf (bytes : List Byte) : Wide := bytes.reverse.foldl (fun acc b => (acc <<< 8) ||| b.zeroExtend 1024) 0

/-- The 128 bytes of a wide value. -/
def wideBytes (v : Wide) : List Byte := (List.range 128).map (wideByte v)

/-- The natural number of little-endian bytes (R5). -/
def natOfBytes : List Byte → Nat
  | [] => 0
  | b :: rest => b.toNat + 256 * natOfBytes rest

/-- The n little-endian bytes of a number (R5). -/
def bytesOfNat : Nat → Nat → List Byte
  | 0, _ => []
  | n + 1, v => BitVec.ofNat 8 v :: bytesOfNat n (v / 256)

/-! ## Tags and values -/

/-- CTX of a tag (R8). -/
def tagCtx (g : Word) : BitVec 8 := g.extractLsb' 24 8

/-- WAVE of a tag (R8). -/
def tagWave (g : Word) : BitVec 20 := g.extractLsb' 4 20

/-- SUB of a tag (R8). -/
def tagSub (g : Word) : BitVec 4 := g.extractLsb' 0 4

/-- The tag of a context, wave and thread (R8). -/
def mkTag (c : BitVec 8) (w : BitVec 20) (t : BitVec 4) : Word := c ++ w ++ t

/-- Whether wave a is later than wave b (R29). -/
def waveLater (a b : BitVec 20) : Bool := decide (0 < (a - b).toNat) && decide ((a - b).toNat < 2 ^ 19)

/-- The 32 bits of a narrow value, the low 32 of a wide one. -/
def Value.word : Value → Word
  | .narrow v => v
  | .wide v => v.setWidth 32

/-- The 1,024 bits of a wide value, a narrow one zero-extended. -/
def Value.bits : Value → Wide
  | .narrow v => v.zeroExtend 1024
  | .wide v => v

namespace Machine

/-! ## Regions and what is due -/

/-- The region of a cluster. -/
def State.region (s : State) (c : Nat) : Region := s.regions.getD c Region.reset

/-- The state with the region of a cluster changed. -/
def State.updRegion (s : State) (c : Nat) (f : Region → Region) : State :=
  { s with regions := s.regions.set c (f (s.region c)) }

/-- The state with one more activity due. -/
def State.due (s : State) (a : Activity) : State := { s with agenda := s.agenda ++ [a] }

/-- The state with an event due. -/
def State.dueEvent (s : State) (i : Instr) (x : Site) : State := s.due (.event i x)

/-- The state with an event due before everything else: an effect that the manual places at once. -/
def State.dueNow (s : State) (i : Instr) (x : Site) : State :=
  { s with agenda := .event i x :: s.agenda, picks := 0 :: s.picks }

/-- The state with an activity due, unless it is due already. -/
def State.dueOnce (s : State) (a : Activity) : State := if s.agenda.contains a then s else s.due a

/-- A fresh number, and the state that has given it. -/
def State.fresh (s : State) : Nat × State := (s.nextId, { s with nextId := s.nextId + 1 })

/-- A step that changes the state and nothing else. -/
abbrev done (s : State) : Host.Outcome State Fault Refusal := .next s

/-! ## Rectangles and contexts -/

/-- The rectangle of a RECT field (R401). -/
def Rect.ofHalf (h : Half) : Rect :=
  { x0 := (h.extractLsb' 0 3).toNat, y0 := (h.extractLsb' 3 3).toNat, lw := (h.extractLsb' 6 2).toNat,
    lh := (h.extractLsb' 8 2).toNat }

/-- The legal rectangles (R47). -/
def Rect.legal (r : Rect) : Bool :=
  r.x0 % 2 ^ r.lw == 0 && r.y0 % 2 ^ r.lh == 0 && decide (r.x0 + 2 ^ r.lw ≤ 8) && decide (r.y0 + 2 ^ r.lh ≤ 8)

/-- Whether a cluster lies in a rectangle. -/
def Rect.contains (r : Rect) (c : Nat) : Bool :=
  decide (r.x0 ≤ c % 8) && decide (c % 8 < r.x0 + 2 ^ r.lw) && decide (r.y0 ≤ c / 8) && decide (c / 8 < r.y0 + 2 ^ r.lh)

/-- The clusters of a rectangle in rising order. -/
def Rect.clusters (r : Rect) : List Nat := (List.range 64).filter r.contains

/-- The origin cluster of a rectangle. -/
def Rect.origin (r : Rect) : Nat := 8 * r.y0 + r.x0

/-- The die of a cluster (R13). -/
def dieOf (c : Nat) : Nat := (c / 8 / 4) * 2 + (c % 8) / 4

/-- The live context of a CTX value in a cluster. -/
def State.ctxAt (s : State) (c : Nat) (x : BitVec 8) : Option Ctx :=
  s.contexts.find? (fun k => k.ctx == x && k.rect.contains c && !k.saved)

/-- The live contexts of a cluster. -/
def State.ctxsOf (s : State) (c : Nat) : List Ctx := s.contexts.filter (fun k => k.rect.contains c && !k.saved)

/-- The launch of a context. -/
def State.launchOf (s : State) (k : Ctx) : Option Launch := s.launches.find? (fun l => l.id == k.launch)

/-- The context with one change. -/
def State.updCtx (s : State) (id : Nat) (f : Ctx → Ctx) : State :=
  { s with contexts := s.contexts.map (fun k => if k.id = id then f k else k) }

/-- The launch with one change. -/
def State.updLaunch (s : State) (id : Nat) (f : Launch → Launch) : State :=
  { s with launches := s.launches.map (fun l => if l.id = id then f l else l) }

/-- Whether the context of a tag may fire in a cluster: live, neither TRAPPED (R414) nor discarded (R419), and the cluster
neither halted by a freeze (R421) nor asleep. -/
def State.runs (s : State) (c : Nat) (g : Word) : Bool :=
  let r := s.region c
  !r.halted && !r.asleep && (match s.ctxAt c (tagCtx g) with | some k => !k.trapped && !k.killed | none => false)

/-- Whether the context of a tag is a speculation (R383). -/
def State.isSpec (s : State) (c : Nat) (g : Word) : Bool :=
  match s.ctxAt c (tagCtx g) with | some k => k.spec | none => false

/-! ## The four counts (R61) -/

/-- The counts of a context in a cluster. -/
def State.counts (s : State) (c : Nat) (x : BitVec 8) : Counts := (s.region c).counts.getD x.toNat {}

/-- The state with the counts of a context in a cluster changed. -/
def State.updCounts (s : State) (c : Nat) (x : BitVec 8) (f : Counts → Counts) : State :=
  s.updRegion c (fun r => { r with counts := r.counts.set x.toNat (f (r.counts.getD x.toNat {})) })

/-- Tokens in flight go up or down. -/
def State.flightUp (s : State) (c : Nat) (g : Word) : State :=
  s.updCounts c (tagCtx g) (fun k => { k with flight := k.flight + 1 })

def State.flightDown (s : State) (c : Nat) (g : Word) : State :=
  s.updCounts c (tagCtx g) (fun k => { k with flight := k.flight - 1 })

/-- Memory replies outstanding go up or down. -/
def State.replyUp (s : State) (c : Nat) (g : Word) : State :=
  s.updCounts c (tagCtx g) (fun k => { k with replies := k.replies + 1 })

def State.replyDown (s : State) (c : Nat) (g : Word) : State :=
  s.updCounts c (tagCtx g) (fun k => { k with replies := k.replies - 1 })

/-- Export traffic in flight goes up or down. -/
def State.exportUp (s : State) (c : Nat) (g : Word) : State :=
  s.updCounts c (tagCtx g) (fun k => { k with exports := k.exports + 1 })

def State.exportDown (s : State) (c : Nat) (g : Word) : State :=
  s.updCounts c (tagCtx g) (fun k => { k with exports := k.exports - 1 })

/-! ## Records in place -/

/-- The raw record at an address of a cluster. -/
def State.raw (s : State) (c a : Nat) : RawRecord := (s.region c).records.getD a {}

/-- The decoded fields of a record at an address of a cluster. -/
def State.recAt (s : State) (c a : Nat) : Rec := Rec.ofRaw (s.raw c a)

/-- The opcode at an address of a cluster. -/
def State.opAt (s : State) (c a : Nat) : Nat := (s.raw c a).opcode

/-- The block a station, port or node belongs to (R88, R90, R94). -/
def State.blockAt (s : State) (c a : Nat) : Nat := ((s.raw c a).f5.extractLsb' 0 8).toNat

/-- The station where the instruction of a home address stands (R55, R99). -/
def State.resolve (s : State) (c a : Nat) : Nat := (s.region c).moved.getD a a

/-- The record of a block of a cluster (R93). -/
def State.block? (s : State) (c id : Nat) : Option Block := blockOf? (s.region c).records id

/-- The class of a station address, PE where it names no station. -/
def classAt (a : Nat) : Class := (classOf? a).getD .pe

/-- The width a station's port takes, by the record in place. -/
def State.widthAt (s : State) (c a : Nat) (port : Port) : Option Width :=
  portWidth (classAt a) (s.opAt c a) (s.recAt c a) port

/-- The matching action of a port, by the record in place; consume on ports of fixed elements (R94). -/
def State.actionAt (s : State) (c a : Nat) (port : Port) : Action :=
  match placeOf a with
  | .station _ => portAction (s.recAt c a) port
  | _ => .consume

/-- The input queue a port's tokens use: one of a PE's four queues, or the port's own queue elsewhere (R85). A pull port's
token uses queue 0 or 1. -/
def State.queueKey (s : State) (c a : Nat) (port : Port) : Nat :=
  if a < 0x1000 then
    let r := s.recAt c a
    let q : Nat :=
      match port with
      | .a => if r.a.act = .pull then 0 else (r.a.low.extractLsb' 11 2).toNat
      | .b => if r.b.act = .pull then 1 else (r.b.low.extractLsb' 11 2).toNat
      | .c => r.c.queue.toNat
      | .p => r.p.queue.toNat
    (elementOf a) * 8 + q
  else a * 8 + port.bits.toNat

/-- The matrix operator of a cluster. -/
def State.mo (s : State) (c m : Nat) : Mo := (s.region c).mos.getD m {}

/-- The state with a matrix operator changed. -/
def State.updMo (s : State) (c m : Nat) (f : Mo → Mo) : State :=
  s.updRegion c (fun r => { r with mos := r.mos.set m (f (r.mos.getD m {})) })

/-! ## Waves (R42 to R44) -/

/-- The record of a wave of a block and tag. -/
def State.wave? (s : State) (c blk : Nat) (g : Word) : Option Wave :=
  (s.region c).waves.find? (fun w => w.block == blk && w.tag == g)

/-- The state with one wave's record changed. -/
def State.updWave (s : State) (c blk : Nat) (g : Word) (f : Wave → Wave) : State :=
  s.updRegion c (fun r => { r with waves := r.waves.map (fun w => if w.block = blk ∧ w.tag = g then f w else w) })

/-- A token of tag g enters a station of a block: its wave opens where no record of it stands (R42). A wave of a block
without exits is watched for quiescence. A block without memory operations has no chain (R222). The model's choice (log 98): a token that
enters a block after its wave closed by its exit count, and the wave's record is gone, opens the wave anew with no exit counted. -/
def State.enterBlock (s : State) (c blk : Nat) (g : Word) : State :=
  match s.wave? c blk g with
  | some _ => s
  | none =>
    let count : Nat := ((s.block? c blk).map (fun b => b.count)).getD 0
    let exits : Nat := ((s.block? c blk).map (fun b => b.exits)).getD 0
    let w : Wave := { block := blk, tag := g, finished := count == 0 }
    let s := s.updRegion c (fun r => { r with waves := r.waves ++ [w] })
    if exits = 0 then s.dueEvent .waveCloseQuiescence { cluster := c, index := blk, tag := g } else s

/-- The open waves of a thread, in every block. -/
def State.openWaves (s : State) (c : Nat) (x : BitVec 8) (t : BitVec 4) : List Wave :=
  (s.region c).waves.filter (fun w => w.isOpen && tagCtx w.tag == x && tagSub w.tag == t)

/-- Whether all waves lie in one run of 2^18 numbers, counted upwards from one of them (R44). -/
def inRun (ws : List (BitVec 20)) : Bool :=
  ws.isEmpty || ws.any (fun b => ws.all (fun w => decide ((w - b).toNat < 2 ^ 18)))

/-- Whether R44 lets a token of tag g open its wave in its thread. -/
def State.spanAllows (s : State) (c : Nat) (g : Word) : Bool :=
  inRun (tagWave g :: (s.openWaves c (tagCtx g) (tagSub g)).map (fun w => tagWave w.tag))

/-- Whether R43 lets a WADV for a block fire: its thread holds fewer open waves of the block than the window. -/
def State.windowAllows (s : State) (c blk : Nat) (g : Word) : Bool :=
  let mine := (s.openWaves c (tagCtx g) (tagSub g)).filter (fun w => w.block == blk)
  decide (mine.length < ((s.block? c blk).map (·.window)).getD 0)

/-! ## Matching (R30 to R34, R165) -/

/-- Whether a stored token is one that a port of a station matches for tag g: by CTX for a sticky port, by the full tag
otherwise (R30, R31). -/
def MatchEntry.fits (e : MatchEntry) (st : Nat) (port : Port) (act : Action) (g : Word) : Bool :=
  e.station == st && e.port == port && !e.request &&
    (if act = .sticky then e.sticky && tagCtx e.tag == tagCtx g else !e.sticky && e.tag == g)

/-- The ports a station takes tokens on, with their actions. Ports it does not read, and immediate ports, take none. -/
def tokenPorts (op : Nat) (r : Rec) : List (Port × Action) :=
  (if r.a.act = .immediate then [] else [(.a, r.a.act)])
    ++ (if readsB op r ∧ r.b.act ≠ .immediate then [(.b, r.b.act)] else [])
    ++ (if readsC op r ∧ r.c.act ≠ .immediate then [(.c, r.c.act)] else [])
    ++ (if r.p.act ≠ .immediate then [(.p, r.p.act)] else [])

/-- The stored token of a port for tag g: the one that came first. -/
def State.tokenFor (s : State) (c st : Nat) (port : Port) (act : Action) (g : Word) : Option MatchEntry :=
  (s.region c).store.find? (fun e => e.fits st port act g)

/-- The pull ports that a station's targets name and that name it as their producer (R33): each wants a request before the
station fires. -/
def State.pullTargets (s : State) (c st : Nat) (r : Rec) : List Target :=
  [r.t0, r.t1].filter (fun t =>
    t.valid &&
      (match placeOf t.addr.toNat with
       | .station _ =>
         let k := s.recAt c t.addr.toNat
         (t.port == .a && k.a.act == .pull && k.a.low.toNat == st)
           || (t.port == .b && k.b.act == .pull && k.b.low.toNat == st)
       | _ => false))

/-- Whether a stored entry is the request of a pull port for tag g. -/
def MatchEntry.asks (e : MatchEntry) (st : Nat) (t : Target) (g : Word) : Bool :=
  e.station == st && e.request && e.port == t.port && e.value == .narrow (t.addr.zeroExtend 32) && e.tag == g

/-- Whether the requests a firing for tag g needs stand in the store. -/
def State.requested (s : State) (c st : Nat) (r : Rec) (g : Word) : Bool :=
  (s.pullTargets c st r).all (fun t => (s.region c).store.any (fun e => e.asks st t g))

/-- Whether every port of a list holds its token for tag g. -/
def State.holds (s : State) (c st : Nat) (ports : List (Port × Action)) (g : Word) : Bool :=
  ports.all (fun p => (s.tokenFor c st p.1 p.2 g).isSome)

/-- The port of a MERGE whose token for tag g fires first: the token that arrived earlier, that of port A where both arrived in one cycle
(R165). -/
def State.mergePort (s : State) (c st : Nat) (g : Word) : Port :=
  match s.tokenFor c st .a .consume g, s.tokenFor c st .b .consume g with
  | some e, some f => if f.came < e.came then .b else .a
  | none, some _ => .b
  | _, none => .a

/-- The ports a firing for tag g waits on: every port that takes tokens, and for MERGE the port whose token came first,
with port P (R165). -/
def State.firingPorts (s : State) (c st op : Nat) (r : Rec) (g : Word) : List (Port × Action) :=
  if op = 0x05 then [(s.mergePort c st g, .consume)] ++ (if r.p.act ≠ .immediate then [(.p, r.p.act)] else [])
  else tokenPorts op r

/-- Whether a station is matched for tag g (R31, R33, R165). -/
def State.matched (s : State) (c st op : Nat) (r : Rec) (g : Word) : Bool :=
  s.holds c st (s.firingPorts c st op r g) g && s.requested c st r g

/-- The value a port reads in a firing for tag g: the immediate, or its token (R154). -/
def State.portValue (s : State) (c st op : Nat) (r : Rec) (port : Port) (act : Action) (g : Word) : Value :=
  if act = .immediate then .narrow (immediateOf (classAt st) op r)
  else ((s.tokenFor c st port act g).map (fun e => e.value)).getD (.narrow 0)

/-- What is in hand in a firing of a station for tag g (R154). Without port P in use the firing takes its full effect; with
it, when bit 0 of the P value is 1 (R89). -/
def State.firingSite (s : State) (c st op : Nat) (r : Rec) (g : Word) : Site :=
  { cluster := c, station := st, tag := g,
    a := s.portValue c st op r .a r.a.act g,
    b := s.portValue c st op r .b r.b.act g,
    c := if r.c.act = .immediate then .narrow 0 else s.portValue c st op r .c r.c.act g,
    hasC := r.c.act ≠ .immediate,
    port := ((s.firingPorts c st op r g).head?.map (fun p => p.1)).getD .a,
    go := r.p.act = .immediate || (s.portValue c st op r .p r.p.act g).word.getLsbD 0 }

/-- The narrow values at the ports in a firing (R154). -/
def Site.aw (x : Site) : Word := x.a.word

def Site.bw (x : Site) : Word := x.b.word

def Site.cw (x : Site) : Word := x.c.word

/-! ## Stalled waves and waiting stations (R43, R44, R58) -/

/-- The tag of a WADV's result (R169) and of TAGWR's (R175). -/
def State.newWaveTag (x : Site) (op : Nat) (r : Rec) : Word :=
  if op = 0x06 then mkTag (tagCtx x.tag) (tagWave x.tag + x.bw.extractLsb' 8 20) (tagSub x.tag)
  else mkTag (tagCtx x.tag) (tagWave x.bw) (if r.flags.getLsbD 0 then tagSub x.bw else tagSub x.tag)

/-- Whether R43 and R44 withhold the firing in hand: a WADV, or a TAGWR that writes WAVE. -/
def State.waveWithheld (s : State) (x : Site) (op : Nat) (r : Rec) : Bool :=
  let g := State.newWaveTag x op r
  if op = 0x06 then !(s.windowAllows x.cluster (x.bw.extractLsb' 0 8).toNat g && s.spanAllows x.cluster g)
  else op == 0x0D && r.flags.getLsbD 1 && !s.spanAllows x.cluster g

/-- Whether a due firing is that of a WADV that R43 or R44 stalls (R58). -/
def State.wadvStalled (s : State) (c st : Nat) (g : Word) : Bool :=
  let r := s.recAt c st
  let x := s.firingSite c st 0x06 r g
  s.opAt c st == 0x06 && s.matched c st 0x06 r g && x.go && s.waveWithheld x 0x06 r

/-- Whether a station waits (R58): for a credit, or as a stalled WADV. -/
def State.isWaiting (s : State) (c st : Nat) : Bool :=
  (s.region c).blocked.any (fun b => b.1 == st)
    || s.agenda.any (fun a => match a with | .fire d a g => d == c && a == st && s.wadvStalled c st g | _ => false)

/-- A station that waits no more ends its count (R59). -/
def State.endWait (s : State) (c st : Nat) : State :=
  if s.isWaiting c st then s else s.updRegion c (fun r => { r with waits := r.waits.erase st })

/-- Every station of a region that waits no more ends its count (R59): a wave has closed, or a station has moved. -/
def State.endWaits (s : State) (c : Nat) : State :=
  (s.region c).waits.foldl (fun s e => s.endWait c e.1) s

/-! ## Sending tokens (R36, R61, R81) -/

/-- Whether a port of an address takes a token that waits nowhere: the queue of its key has room (R36: 8 entries). -/
def State.hasCredit (s : State) (c key : Nat) : Bool := decide ((s.region c).inUse.getD key 0 < 8)

/-- A station begins to wait (R58, R59): the cycle is noted, and a probe is to follow. -/
def State.startWait (s : State) (c st : Nat) : State :=
  if ((s.region c).waits.get? st).isSome then s
  else (s.updRegion c (fun r => { r with waits := r.waits.set st s.cycle })).dueOnce
    (.event .deadlockProbeSend { cluster := c, station := st })

/-- The keys of the queues that feed a station: those of the ports it takes tokens on (R36, R37, R85). -/
def State.queuesOf (s : State) (c a : Nat) : List Nat :=
  (([Port.a, .b, .c, .p].filter (fun o => (s.widthAt c a o).isSome && s.actionAt c a o != .immediate)).map
    (s.queueKey c a)).eraseDups

/-- A token enters the queue of a key: it counts for every station of the element that the queue feeds (R37). -/
def State.countArrival (s : State) (c st key : Nat) : State :=
  match classOf? st with
  | none => s
  | some _ =>
    let fed := (stationsOf (elementOf st)).filter (fun a =>
      ((s.region c).records.get? a).isSome && (s.queuesOf c a).contains key)
    (s.updRegion c (fun r =>
      { r with arb := fed.foldl (fun t a =>
          let k := t.getD a {}
          t.set a { k with entered := k.entered + 1 }) r.arb })).dueOnce (.event .arbiterWeightUpdate { cluster := c })

/-- A sender takes a credit of a queue: an entry of the queue waits for its token (R36). -/
def State.takeCredit (s : State) (c st key : Nat) : State :=
  (s.updRegion c (fun r => { r with inUse := r.inUse.set key (r.inUse.getD key 0 + 1) })).countArrival c st key

/-- A token leaves its sender: it takes a credit of its target's queue and is on its way, with the key of that queue, or waits at its
sender for a credit (R36). -/
def State.launchToken (s : State) (from_ : Nat) (t : Token) : State :=
  let key := s.queueKey t.cluster t.station t.port
  if s.hasCredit t.cluster key then
    (s.takeCredit t.cluster t.station key).dueEvent .tokenArrival { cluster := t.cluster, token := t, index := key }
  else (s.updRegion t.cluster (fun r => { r with blocked := r.blocked ++ [(from_, t)] })).startWait t.cluster from_

/-- Whether an address is that of an export port (R50, R75). -/
def isExportPort (a : Nat) : Bool := decide (0x1400 ≤ a) && decide (a < 0x1800)

/-- A token leaves an export port of cluster c for the station, by its home address, of another cluster: with a credit of the target's
queue it crosses the mesh, and until it has one it waits at the port (R36, R50). -/
def State.launchExport (s : State) (c port : Nat) (t : Token) : State :=
  let st := s.resolve t.cluster t.station
  let key := s.queueKey t.cluster st t.port
  if s.hasCredit t.cluster key then
    (s.takeCredit t.cluster st key).dueEvent .exportArrival
      { cluster := t.cluster, station := port, index := c, id := key, token := { t with station := st } }
  else s.updRegion c (fun r => { r with blocked := r.blocked ++ [(port, t)] })

/-- The key of the queue that a token waiting at a station or export port is to enter. -/
def State.wantedKey (s : State) (from_ : Nat) (t : Token) : Nat :=
  s.queueKey t.cluster (if isExportPort from_ then s.resolve t.cluster t.station else t.station) t.port

/-- A waiting token leaves its sender, a station or an export port of cluster c, or waits on (R36). -/
def State.launchFrom (s : State) (c from_ : Nat) (t : Token) : State :=
  if isExportPort from_ then s.launchExport c from_ t else s.launchToken from_ t

/-- A token leaves its input queue: its credit travels back to a sender (R36, R61). -/
def State.freeCredit (s : State) (c key : Nat) (g : Word) : State :=
  (s.updCounts c (tagCtx g) (fun k => { k with credits := k.credits + 1 })).dueEvent .creditReturn
    { cluster := c, index := key, tag := g }

/-- A token is sent: it counts as in flight (R61), its wave opens (R42), and it leaves its sender. -/
def State.sendToken (s : State) (from_ : Nat) (t : Token) : State :=
  let s := s.flightUp t.cluster t.tag
  let s := match t.kind with
    | .data | .paired _ _ => s.enterBlock t.cluster (s.blockAt t.cluster t.station) t.tag
    | _ => s
  s.launchToken from_ t

/-- A token that carries a memory reply or completion is consumed: the reply stops counting as outstanding once the last of its tokens
is (R61, R217). -/
def State.useReply (s : State) (c : Nat) : Option Nat → State
  | none => s
  | some n =>
    match (s.region c).answers.find? (fun e => e.1 == n) with
    | none => s
    | some e =>
      if e.2.2 ≤ 1 then
        (s.updRegion c (fun r => { r with answers := r.answers.filter (fun a => a.1 != n) })).replyDown c e.2.1
      else s.updRegion c (fun r =>
        { r with answers := r.answers.map (fun a => if a.1 = n then (a.1, a.2.1, a.2.2 - 1) else a) })

/-- A token is consumed or discarded: it no longer counts as in flight, nor its reply as outstanding (R61). -/
def State.spend (s : State) (c : Nat) (g : Word) (reply : Option Nat) : State := (s.flightDown c g).useReply c reply

/-- Bytes of an overflow slot (R39). -/
def MatchEntry.slotBytes (e : MatchEntry) : Nat :=
  match e.value with
  | .narrow _ => 32
  | .wide _ => 160

/-- Bytes of the overflow area in use (R19). -/
def Region.overflowBytes (r : Region) : Nat := ((r.store.filter (fun e => e.spilled)).map MatchEntry.slotBytes).sum

/-- Elements that stall for want of an overflow slot look again where the area holds less than the `had` bytes it held before (R40). -/
def State.slotsFreed (s : State) (c had : Nat) : State :=
  if (s.region c).overflowBytes < had ∧ !(s.region c).stalled.isEmpty then s.dueOnce (.event .overflowSlotFreed { cluster := c }) else s

/-- The bytes of a cluster's overflow area in use. -/
def State.overflowOf (s : State) (c : Nat) : Nat := (s.region c).overflowBytes

/-- The reply or completion of request n leaves station `st` for the targets of its record, one value for each; where neither target is
valid it is discarded, and counts no more (R81, R217). -/
def State.answerTo (s : State) (c st n : Nat) (g : Word) (v w : Value) : State :=
  let r := s.recAt c st
  let sends := (if r.t0.valid then [(r.t0, v)] else []) ++ (if r.t1.valid then [(r.t1, w)] else [])
  if sends.isEmpty then s.replyDown c g
  else
    sends.foldl (fun s e => s.sendToken st
        { cluster := c, station := e.1.addr.toNat, port := e.1.port, kind := .data, value := e.2, tag := g, reply := some n })
      (s.updRegion c (fun k => { k with answers := k.answers ++ [(n, g, sends.length)] }))

/-- A value sent from a station of a cluster to a target; an unused target discards it (R81). -/
def State.emitTo (s : State) (c from_ : Nat) (t : Target) (v : Value) (g : Word) : State :=
  if t.valid then
    s.sendToken from_ { cluster := c, station := t.addr.toNat, port := t.port, kind := .data, value := v, tag := g }
  else s

/-! ## Physical memory (R313, R314, R345) -/

/-- A bit field of a number. -/
def bits (v hi lo : Nat) : Nat := v / 2 ^ lo % 2 ^ (hi + 1 - lo)

/-- What a physical address names (R313). -/
inductive PhysPlace where
  | hbm | host | remote (d : Nat) | reserved
  deriving DecidableEq, Repr

/-- The decoding of a physical address (R313). -/
def State.physPlace (s : State) (pa : Nat) : PhysPlace :=
  let top := pa / 2 ^ 48 % 16
  if top = 0 then (if pa / 2 ^ 39 % 2 ^ 9 = 0 then .hbm else .reserved)
  else if top = 4 then .host
  else if 8 ≤ top then
    let d := pa / 2 ^ 39 % 2 ^ 12
    if d = s.regs.devid.toNat % 2 ^ 12 then .reserved else .remote d
  else .reserved

/-- The die whose point is the home of a line, or stands for the device towards the host (R314). -/
def homeDie (pa : Nat) : Nat := if pa / 2 ^ 48 % 16 = 4 then pa / 128 % 2 else pa / 2 ^ 37 % 4

/-- The vault slot that holds a backing page: cluster and slot (R325). -/
def State.residentSlot (s : State) (page : Nat) : Option (Nat × Nat) :=
  (s.regions.filterMap (fun (c, r) => (r.vault.find? (fun (_, v) => v.page == page)).map (fun (n, _) => (c, n)))).head?

/-- A modified copy of a line outside memory, nearest first: an L1 in M, an eviction buffer, a dirty L2 line (R330 to
R334). -/
def State.modifiedCopy (s : State) (line : Nat) : Option Wide :=
  let l1s := s.regions.filterMap (fun (_, r) =>
    match r.l1.get? line with | some l => if l.state = .m then some l.data else none | none => none)
  let evs := s.regions.filterMap (fun (_, r) =>
    match r.evicting.get? line with | some l => if l.state = .m then some l.data else none | none => none)
  let l2s := s.dies.filterMap (fun (_, d) =>
    match d.l2.get? line with | some l => if l.dirty then some l.data else none | none => none)
  let devs := s.dies.filterMap (fun (_, d) =>
    match d.evicting.get? line with | some l => if l.dirty then some l.data else none | none => none)
  (l1s ++ evs ++ l2s ++ devs).head?

/-- The line as memory holds it: HBM4, host memory, or the vault slot its page is resident in; a line of the page in hand-over as it has come
from the new home for an access of the device's own (R338). -/
def State.memLine (s : State) (line : Nat) : Wide :=
  match s.farLines.get? line, s.residentSlot (line / 512) with
  | some v, _ => v
  | none, some (c, n) => wideOf ((s.region c).vaultBytes.range (n * 65536 + line % 512 * 128) 128)
  | none, none => wideOf (s.mem.range (line * 128) 128)

/-- The value of a line that every agent reads at this instant (R345). -/
def State.lineNow (s : State) (line : Nat) : Wide := (s.modifiedCopy line).getD (s.memLine line)

/-- The byte at a physical address that every agent reads at this instant (R345). -/
def State.readPhys (s : State) (pa : Nat) : Byte := wideByte (s.lineNow (pa / 128)) (pa % 128)

/-- Whether a physical address lies in the page that is in hand-over (R338). -/
def State.inLentPage (s : State) (pa : Nat) : Bool := s.lentPage == some (pa / 65536) && decide (pa < 2 ^ 39)

/-- The bytes from a physical address. -/
def State.readPhysBytes (s : State) (pa n : Nat) : List Byte := (List.range n).map (fun i => s.readPhys (pa + i))

/-- The little-endian number of n bytes from a physical address. -/
def State.readPhysNat (s : State) (pa n : Nat) : Nat := natOfBytes (s.readPhysBytes pa n)

/-- A table with one entry changed where it is listed. -/
def updEntry {α : Type} (t : Table α) (n : Nat) (f : α → α) : Table α :=
  t.map (fun e => if e.1 = n then (n, f e.2) else e)

/-! ## Links and the page in hand-over (R338, R435, R441) -/

/-- The Span port that a transfer to a line of another device uses: the live ports of its ROUTE entry share the lines by PA[10:7], so that
all transfers to one line use one port (R435, log 117). None while no port is live. -/
def State.spanPort (s : State) (mask : Half) (pa : Nat) : Option Nat :=
  let live := (List.range 16).filter (fun p => mask.getLsbD p && !s.spanDown.contains p)
  live[bits pa 10 7 % live.length]?

/-- Whether a request that is on its way to another device finds a live port (R435). -/
def State.linkUp (s : State) (r : SpanReq) : Bool := (s.spanPort r.mask r.addr).isSome

/-- A request goes to a device over Span (R337, R435): its answer comes as MEMORY_REPLY. While no port is live, the time of 1 ms runs
that R435 allows it. A later change of ROUTE does not move it (R430). -/
def State.toSpan (s : State) (id d pa : Nat) : State :=
  let r : SpanReq := { id := id, device := d, addr := pa, mask := s.regs.route.getD d 0 }
  let s := { s with spanReqs := s.spanReqs ++ [r] }
  if s.linkUp r then s else s.dueEvent .spanRouteTimeout { id := id, amount := some s.refCount }

/-- HOSTAT is MOVING (R430). -/
def State.moving (s : State) : Bool := s.regs.hostat == 1

/-- The borrower of the page in hand-over, and the address there of one of its bytes (R430, R440). -/
def State.borrower (s : State) : Nat := s.lentTo

def State.newHome (s : State) (pa : Nat) : Nat := s.regs.honew.toNat + pa % 65536

/-- An access of the device's own, from no cluster, goes on to the new home of a page in hand-over; while the page moves it waits (R338). -/
def State.forwardOwn (s : State) (q : MemReq) (pa : Nat) : State :=
  let f := s.fresh
  { f.2 with reqs := f.2.reqs ++ [{ q with id := f.1, va := BitVec.ofNat 64 pa, stage := .away }] }.toSpan f.1 s.borrower
    (if s.moving then pa else s.newHome pa)

/-- A write of the device's own to a page in hand-over (R441). A line that has come from the new home for an access that goes on takes it
too. -/
def State.forwardWrite (s : State) (pa : Nat) (bytes : List Byte) : State :=
  let s := { s with farLines := updEntry s.farLines (pa / 128) (fun v =>
    (bytes.zip (List.range bytes.length)).foldl (fun v (b, i) => if pa % 128 + i < 128 then setWideByte v (pa % 128 + i) b else v) v) }
  s.forwardOwn { id := 0, cluster := 64, station := 64, tag := 0, kind := .store, va := 0, size := bytes.length, data := bytes,
                 release := true } pa

/-- A leaf in a page in hand-over is marked at its new home, where it still is the leaf that was read: a compare-and-swap of its low word,
which holds A and D (R318, R338). -/
def State.forwardMark (s : State) (pa old new : Nat) : State :=
  s.forwardOwn { id := 0, cluster := 64, station := 64, tag := 0, kind := .atomic .cas, va := 0, b := BitVec.ofNat 32 old,
                 c := BitVec.ofNat 32 new } pa

/-- Whether the device has, of lines that an access of its own reads, those in the page in hand-over: they come from the page's new home
(R338). -/
def State.linesHere (s : State) (lines : List Nat) : Bool :=
  lines.all (fun l => !s.inLentPage (l * 128) || (!s.moving && (s.farLines.get? l).isSome))

/-- The first line that is not here is asked for at its new home, unless it is on its way; while the page moves, the access waits (R338). -/
def State.askFar (s : State) (lines : List Nat) : State :=
  match lines.find? (fun l => s.inLentPage (l * 128) && (s.farLines.get? l).isNone) with
  | some l =>
    if s.moving || s.reqs.any (fun q => q.cluster == 64 && q.station == 67 && q.va.toNat == l * 128) then s
    else s.forwardOwn { id := 0, cluster := 64, station := 67, tag := 0, kind := .load, va := 0, size := 128 } (l * 128)
  | none => s

/-- An access has read its lines: what came from a new home for it is not kept. -/
def State.useFar (s : State) (lines : List Nat) : State :=
  { s with farLines := s.farLines.filter (fun e => !lines.contains e.1) }

/-- A line that the device has asked for has come from the page's new home. -/
def State.setFar (s : State) (line : Nat) (data : List Byte) : State :=
  if s.inLentPage (line * 128) then { s with farLines := s.farLines.set line (wideOf data) } else s

/-- The address of the entry of the egress ring that the next record takes (R434). -/
def State.egressAt (s : State) : Nat :=
  s.regs.egbase.toNat + 16 * (s.regs.egprod.toNat % 2 ^ (s.regs.egctl.extractLsb' 0 4).toNat)

/-- What has been asked for or has come for the device's own accesses is not kept: the hand-over is over, or who asked is gone. -/
def State.forgetFar (s : State) : State :=
  let mine := fun (q : MemReq) => q.cluster == 64 && q.station == 67
  let ids := (s.reqs.filter mine).map (fun q => q.id)
  { s with farLines := [], reqs := s.reqs.filter (fun q => !mine q), spanReqs := s.spanReqs.filter (fun e => !ids.contains e.id) }

/-- The lines of a run of physical bytes. -/
def linesOf (pa n : Nat) : List Nat := (List.range ((pa + n - 1) / 128 - pa / 128 + 1)).map (fun i => pa / 128 + i)


/-- One byte becomes visible to every agent: every copy of its line, and memory or the vault slot, holds it (R345). -/
def State.putPhys (s : State) (pa : Nat) (b : Byte) : State :=
  let line := pa / 128
  let i := pa % 128
  let setL1 := fun (l : L1Line) => { l with data := setWideByte l.data i b }
  let setL2 := fun (l : L2Line) => { l with data := setWideByte l.data i b }
  let s := { s with
    regions := s.regions.map (fun (e : Nat × Region) =>
      (e.1, { e.2 with l1 := updEntry e.2.l1 line setL1, evicting := updEntry e.2.evicting line setL1 })),
    dies := s.dies.map (fun (e : Nat × Die) =>
      (e.1, { e.2 with l2 := updEntry e.2.l2 line setL2, evicting := updEntry e.2.evicting line setL2 })) }
  match s.residentSlot (pa / 65536) with
  | some (c, n) => s.updRegion c (fun r =>
      { r with vaultBytes := r.vaultBytes.put (n * 65536 + pa % 65536) b,
               vault := updEntry r.vault n (fun v => { v with dirty := true }) })
  | none => { s with mem := s.mem.put pa b }

/-- The queues whose WAITF in progress waits on a flag of a line (R439), and the privileged queues whose launch window holds
it (R402), have an event due, and so have waiting PWAITs (R250) and a counter that lost INIT (R363); a speculation that has read the line meets a conflict (R386). `spec` is the queue of the
speculation that made the write, if one did. -/
def State.noticeWrite (s : State) (line : Nat) (spec : Option Nat) : State :=
  let s := s.queues.foldl (fun s (q, k) =>
    let s := if k.current.isSome ∧ k.waiting = some line
      then s.dueOnce (.event .waitfFlagRecheck { queue := q }) else s
    if q < 4 ∧ k.qctl.getLsbD 31 ∧ k.winbase.toNat ≤ line * 128 ∧ line * 128 < k.winbase.toNat + 16384
      then s.dueNow .launchWindowSeal { queue := q } else s) s
  let s := if s.pwaits.any (fun w => w.1 == line) then s.dueOnce (.event .atomicAtHome { index := line * 128 }) else s
  let s := if (s.quarry.get? line).isSome ∧ !(s.readPhysNat (line * 128 + 8) 4).testBit 31
    then s.dueNow .counterLineWrite { index := line, hasC := true } else s
  if s.ferry.any (fun (q, f) => some q != spec && (match f.spec with | some x => x.reads.contains line | none => false))
  then s.dueNow .readSetConflict { index := line, queue := spec.getD 64 } else s

/-- Bytes are written at a physical address by an access performed at its home, and become visible at once (R345). `spec` is the
queue of the speculation that made the write, if one did. -/
def State.writePhysBy (s : State) (pa : Nat) (bytes : List Byte) (spec : Option Nat) : State :=
  if s.inLentPage pa then s.forwardWrite pa bytes else
  let s := (bytes.zip (List.range bytes.length)).foldl (fun s (b, i) => s.putPhys (pa + i) b) s
  if bytes.isEmpty then s
  else (List.range ((pa + bytes.length - 1) / 128 - pa / 128 + 1)).foldl
    (fun s k => s.noticeWrite (pa / 128 + k) spec) s

/-- Bytes are written at a physical address by an agent that is no speculation. -/
def State.writePhys (s : State) (pa : Nat) (bytes : List Byte) : State := s.writePhysBy pa bytes none

/-! ## Events (R410) -/

/-- The fields of an event entry (R410). -/
structure EventRec where
  evtype  : Nat
  code    : Nat := 0
  queue   : Nat := 0
  ctx     : Nat := 0
  cluster : Nat := 0
  station : Nat := 0
  tag     : Word := 0
  vala    : Word := 0
  valb    : Word := 0
  va      : Nat := 0
  agen    : Nat := 0
  kind    : Nat := 0
  list    : List Nat := []
  pseq    : Nat := 0
  /-- The context that raised the event. -/
  raiser  : Option Nat := none
  deriving DecidableEq, Repr

/-- The queue's registers. -/
def State.queue (s : State) (q : Nat) : Queue := s.queues.getD q {}

/-- The state with a queue's registers changed. -/
def State.updQueue (s : State) (q : Nat) (f : Queue → Queue) : State :=
  { s with queues := s.queues.set q (f (s.queue q)) }

/-- The 127 bytes of an entry before its SEAL, with TIME 0 until it is posted (R410). -/
def EventRec.bytes (e : EventRec) : List Byte :=
  let stations := (e.list.take 16).map (fun a => bytesOfNat 2 a)
  [BitVec.ofNat 8 e.evtype, BitVec.ofNat 8 e.code, BitVec.ofNat 8 e.queue, BitVec.ofNat 8 e.ctx,
   BitVec.ofNat 8 e.cluster, 0]
  ++ bytesOfNat 2 e.station ++ bytesOfNat 4 e.tag.toNat ++ bytesOfNat 4 0
  ++ bytesOfNat 4 e.vala.toNat ++ bytesOfNat 4 e.valb.toNat ++ bytesOfNat 8 e.va ++ bytesOfNat 8 e.agen
  ++ [BitVec.ofNat 8 e.kind, BitVec.ofNat 8 (e.list.take 16).length] ++ bytesOfNat 6 0
  ++ bytesOfNat 8 e.pseq ++ bytesOfNat 8 0
  ++ (stations.flatten ++ bytesOfNat (32 - 2 * stations.length) 0) ++ bytesOfNat 31 0

/-- An entry's bytes with TIME, the reference count when it is posted (R410). -/
def withTime (b : List Byte) (time : Nat) : List Byte := b.take 0x38 ++ bytesOfNat 8 time ++ b.drop 0x40

/-- Entries of a queue's event ring (R399 EVLOG2). -/
def Queue.ringSize (k : Queue) : Nat := 2 ^ (k.qctl.extractLsb' 20 4).toNat

/-- The lap seal of entry i of a ring of n entries (R402, R410). -/
def lapSeal (i n : Nat) : Nat := (i / n) % 255 + 1

/-- Whether a line is an initialised counter with slabs out (R361, R363). -/
def State.holdsSlabs (s : State) (line : Nat) : Bool :=
  let w := s.readPhysNat (line * 128 + 8) 4
  (s.quarry.get? line).isSome && w.testBit 31 && w % 128 != 0

/-- Whether a plain write of a line takes its turn at the home: slabs are out, which it must recall first, or a recall is in progress, whose
every answer comes first (R363). -/
def State.slabsOut (s : State) (line : Nat) : Bool :=
  s.holdsSlabs line || (match s.quarry.get? line with | some h => h.recalled.isSome | none => false)

/-- A plain write of a line with slabs out takes its turn at the home (R363). -/
def State.recallFor (s : State) (line id : Nat) : State := s.dueOnce (.event .counterLineWrite { index := line, id := id })

/-- Held events of a queue are posted while its ring has room, and the page of the entry does not move (R338, R410); after the recall of a counter
where the entry stands in a counter line (R363). The fuel is the number of events held. -/
def State.drainEvents : Nat → State → Nat → State
  | 0, s, _ => s
  | fuel + 1, s, q =>
    let k := s.queue q
    match k.events with
    | [] => s
    | e :: rest =>
      let at_ := k.evbase.toNat + 128 * (k.evtail.toNat % k.ringSize)
      if k.ringSize ≤ (k.evtail - k.evhead).toNat ∨ (s.moving ∧ s.inLentPage at_) then s
      else if s.slabsOut (at_ / 128) then s.recallFor (at_ / 128) 0
      else
        let i := k.evtail.toNat
        let s := s.updQueue q (fun k => { k with events := rest, evtail := k.evtail + 1 })
        State.drainEvents fuel
          (s.writePhys at_
            (withTime e.bytes s.refCount ++ [BitVec.ofNat 8 (lapSeal i k.ringSize)])) q

/-- Events that waited for their rings are posted. -/
def State.drainAll (s : State) : State :=
  s.queues.foldl (fun s e => State.drainEvents (s.queue e.1).events.length s e.1) s

/-- An event is posted to a queue's ring, or held while the ring is full (R410). -/
def State.post (s : State) (q : Nat) (e : EventRec) : State :=
  let s := s.updQueue q (fun k => { k with events := k.events ++ [{ raiser := e.raiser, bytes := e.bytes }] })
  State.drainEvents (s.queue q).events.length s q

/-! ## Traps (R412 to R414) -/

/-- The trap codes of R413. -/
def Trap.code : Trap → Nat
  | .illegal => 0x01 | .badTarget => 0x02 | .tileEmpty => 0x03 | .align => 0x04 | .page => 0x05 | .access => 0x06
  | .deadlock => 0x07 | .feature => 0x08 | .quarry => 0x09 | .brk => 0x0A | .trap => 0x0B | .machineCheck => 0x0C

/-- A context becomes TRAPPED: it fires no station of its CTX in any cluster of its rectangle (R414). -/
def State.setTrapped (s : State) (id : Nat) : State := s.updCtx id (fun k => { k with trapped := true })

/-- The EVTYPE 1 event of a trap in a context. -/
def State.trapEvent (s : State) (k : Ctx) (t : Trap) (c sta : Nat) (g a b : Word) (va agen kind : Nat)
    (stations : List Nat) : State :=
  match s.launchOf k with
  | some l =>
    let e : EventRec := { evtype := 1, code := t.code, queue := l.queue, ctx := k.ctx.toNat, cluster := c,
                          station := sta, tag := g, vala := a, valb := b, va := va, agen := agen, kind := kind,
                          list := stations, pseq := l.pseq.toNat, raiser := some k.id }
    s.post l.queue e
  | none => s

/-- Whether an event that a context raised waits for room in a ring: the device holds the context with it (R410). -/
def State.heldInRing (s : State) (k : Ctx) : Bool := s.queues.any (fun q => q.2.events.any (fun e => e.raiser == some k.id))

/-- Whether a tag belongs to a context. -/
def ofCtx (x : BitVec 8) (g : Word) : Bool := tagCtx g == x

/-- What a region still counts as tokens in flight for a context that a discard removes (R61, R419). -/
def Region.tokensOf (r : Region) (x : BitVec 8) : Nat :=
  (r.store.filter (fun e => ofCtx x e.tag && !e.sticky)).length
    + (r.blocked.filter (fun e => ofCtx x e.2.tag && !isExportPort e.1)).length
    + ((r.rounds.filter (fun e => ofCtx x e.tag)).map (fun e => (if e.seen = 0 then 0 else 1) + e.parts.length)).sum
    + (r.bindings.filter (fun e => ofCtx x e.2.tag && !e.2.flag)).length
    + (r.brkHeld.filter (fun e => ofCtx x e.2.1)).length
    + (r.mos.map (fun e => (e.2.queue.filter (fun t => ofCtx x t.tag)).length
        + (match e.2.run with | some m => if ofCtx x m.token.tag then 1 else 0 | none => 0))).sum
    + (r.templates.map (fun e => (e.2.queue.filter (fun t => ofCtx x t.tag)).length)).sum
    + (r.expansions.filter (fun e => ofCtx x e.tag)).length

/-- An accumulator as it stands after the MMAs of a context in flight are abandoned (R306, R419). -/
def restoreShadows (r : Region) (x : BitVec 8) : Table Acc :=
  r.mos.foldl (fun accs e =>
    match e.2.run with
    | some m => if ofCtx x m.token.tag && !m.restored then accs.set (m.token.word.extractLsb' 20 6).toNat m.shadow else accs
    | none => accs) r.accs

/-- A template without a context: IDLE when the context has used it, its own triggers and copy gone (R254, R419). -/
def Template.without (t : Template) (x : BitVec 8) : Template :=
  let queue := t.queue.filter (fun e => !ofCtx x e.tag)
  let run := t.run.filter (fun k => !ofCtx x k.tag)
  if t.users.contains x then
    { t with state := .idle, queue := queue, run := run, users := t.users.filter (fun u => u != x) }
  else t

/-- The queue keys, one for each entry, of the tokens that a context has in MO queues and trigger queues, and of those that wait in their
queue for a WADV or TAGWR (R36). -/
def Region.heldKeys (r : Region) (x : BitVec 8) : List Nat :=
  (r.mos.map (fun e => List.replicate (e.2.queue.filter (fun t => ofCtx x t.tag)).length ((0x12C0 + e.1) * 8))).flatten
    ++ (r.templates.map (fun e =>
      List.replicate (e.2.queue.filter (fun t => ofCtx x t.tag)).length ((0x13C0 + e.1) * 8))).flatten
    ++ (r.store.filter (fun e => ofCtx x e.tag)).filterMap (fun e => e.queued)

/-- The requests whose replies or completions the tokens carry that a context has in a region's stations and queues (R217). -/
def Region.heldReplies (r : Region) (x : BitVec 8) : List Nat :=
  (r.store.filter (fun e => ofCtx x e.tag)).filterMap (fun e => e.reply)
    ++ (r.blocked.filter (fun e => ofCtx x e.2.tag)).filterMap (fun e => e.2.reply)
    ++ (r.mos.map (fun e => (e.2.queue.filter (fun t => ofCtx x t.tag)).filterMap (fun t => t.reply)
        ++ (match e.2.run with | some m => if ofCtx x m.token.tag then m.token.reply.toList else [] | none => []))).flatten
    ++ (r.templates.map (fun e => (e.2.queue.filter (fun t => ofCtx x t.tag)).filterMap (fun t => t.reply))).flatten

/-- Queue entries no longer in use. -/
def dropUse (t : Table Nat) (keys : List Nat) : Table Nat := keys.foldl (fun t k => t.set k (t.getD k 0 - 1)) t

/-- Whether an MMA of a context in flight streams from the slot of a memory port (R306). -/
def Region.streams (r : Region) (x : BitVec 8) (port : Nat) : Bool :=
  r.mos.any (fun e => match e.2.run with
    | some m => ofCtx x m.token.tag && m.token.word.getLsbD 3 && (m.token.word.extractLsb' 8 6).toNat == port
    | none => false)

/-- Whether a register operation goes with a discarded context: one that has not begun, an MMA's, one whose request goes, and any
where `all` is set (R396, R419). -/
def RegOp.goes (o : RegOp) (x : BitVec 8) (all : Bool) (ids : List Nat) : Bool :=
  ofCtx x o.tag && (all || !o.begun || ids.contains o.id || (match o.act with | .mma _ => true | _ => false))

/-- What a discarded context leaves a region without (R396, R419): tokens, MO tokens and operations, register operations that
have not begun or whose request goes (all of them where `all` is set), refused and buffered operations, rounds, expansions, held BRK tokens,
bindings (a flag-mode one only where `all` is set and
this context made it, R263), its pins and the templates it used. -/
def Region.purge (r : Region) (x : BitVec 8) (ctx : Nat) (all : Bool) (ids : List Nat) : Region :=
  { r with
    store := r.store.filter (fun e => !ofCtx x e.tag)
    asked := r.asked.filter (fun e => !ofCtx x e.2.2)
    blocked := r.blocked.filter (fun e => !ofCtx x e.2.tag)
    waves := r.waves.filter (fun w => !ofCtx x w.tag)
    brkHeld := r.brkHeld.filter (fun e => !ofCtx x e.2.1)
    accs := restoreShadows r x
    mos := r.mos.map (fun (e : Nat × Mo) =>
      (e.1, { queue := e.2.queue.filter (fun t => !ofCtx x t.tag)
              run := e.2.run.filter (fun m => !ofCtx x m.token.tag) }))
    regOps := r.regOps.filter (fun o => !o.goes x all ids)
    slots := r.slots.filter (fun e => !((all && ofCtx x e.2.tag) || r.streams x e.1))
    expansions := r.expansions.filter (fun e => !ofCtx x e.tag)
    groups := r.groups.filter (fun e => e.1 / 16 != x.toNat)
    rounds := r.rounds.filter (fun e => !ofCtx x e.tag)
    templates := r.templates.map (fun (e : Nat × Template) => (e.1, e.2.without x))
    bindings := r.bindings.filter (fun e => !(ofCtx x e.2.tag && (if e.2.flag then all && e.2.ctx == ctx else true)))
    pins := r.pins.filter (fun p => p.ctx != x)
    counts := r.counts.set x.toNat
      (let k := r.counts.getD x.toNat {}
       { k with flight := k.flight - r.tokensOf x
                exports := k.exports - (r.blocked.filter (fun e => ofCtx x e.2.tag && isExportPort e.1)).length }) }

/-- A vault slot is PINNED while a pin of a context names it (R323, R325). -/
def State.settlePins (s : State) : State :=
  let held := (s.regions.map (fun e => (e.2.pins.filter (fun p => p.page)).map (fun p => p.item))).flatten
  { s with regions := s.regions.map (fun (e : Nat × Region) =>
      (e.1, { e.2 with vault := e.2.vault.map (fun (v : Nat × VaultSlot) =>
        (v.1, { v.2 with pinned := held.contains (e.1 * 512 + v.1) })) })) }

/-! ## Requests and their replies (R217, R241) -/

/-- The request with a number. -/
def State.req? (s : State) (id : Nat) : Option MemReq := s.reqs.find? (fun q => q.id == id)

/-- The state with a request changed. -/
def State.updReq (s : State) (id : Nat) (f : MemReq → MemReq) : State :=
  { s with reqs := s.reqs.map (fun q => if q.id = id then f q else q) }

/-- The state without a request. -/
def State.dropReq (s : State) (id : Nat) : State := { s with reqs := s.reqs.filter (fun q => q.id != id) }

/-- The memory port of a station (R75). -/
def portOf (st : Nat) : Nat := (st - 0x1100) / 8

/-- A request is performed, with the values that its reply carries: one for both targets, or one for each. -/
def State.performed (s : State) (q : MemReq) (result : List Value) : State :=
  (s.updReq q.id (fun q => { q with stage := .performed, result := result })).dueEvent .memoryReply { id := q.id }

/-- The source port of a request, by cluster and memory port; that of an operation of another device, by the device and its port. -/
def sourcePort (q : MemReq) : Nat := if q.cluster = 64 then 2048 + q.block else q.cluster * 32 + portOf q.station

/-- The reply that the home still keeps for a request's id (R241). -/
def State.kept (s : State) (q : MemReq) : Option (List Value) :=
  ((s.rids.getD (sourcePort q) []).find? (fun e => e.1 == q.rid)).map (fun e => e.2)

/-- A request that leaves for its home: an older reply under the same id is no longer kept for its port (R241). -/
def State.forget (s : State) (q : MemReq) : State :=
  { s with rids := s.rids.set (sourcePort q) ((s.rids.getD (sourcePort q) []).filter (fun e => e.1 != q.rid)) }

/-- The home keeps the reply with the ids and replies of the port's last 64 requests (R241). -/
def State.keep (s : State) (q : MemReq) (v : List Value) : State :=
  { s with rids := s.rids.set (sourcePort q) (((q.rid, v) :: s.rids.getD (sourcePort q) []).take 64) }

/-- The home replies to a request, and keeps the reply (R241). -/
def State.homeReply (s : State) (q : MemReq) (v : List Value) : State := (s.keep q v).performed q v

/-! ## Memory types in use at once (R317, R319, R320) -/

/-- The address bits below a leaf's page (R315). -/
def pageBits (level : Nat) : Nat := if level = 1 then 30 else if level = 2 then 21 else 16

/-- MT, W and SHR of a leaf (R317). -/
def leafMt (l : Nat) : Nat := bits l 4 3

/-- Whether some cluster translates to a physical page through a leaf of a memory type: the mapping is in use until the TLB
invalidation command ends it (R319, R320). -/
def State.mapsAs (s : State) (mt page : Nat) : Bool :=
  s.regions.any (fun e => e.2.tlb.any (fun t => leafMt t.leaf.toNat == mt
    && t.leaf.toNat / 2 ^ 16 % 2 ^ 36 / 2 ^ (pageBits t.level - 16) == page / 2 ^ (pageBits t.level - 16)))

/-- Whether uncached and cacheable mappings of the page of a line are in use at once (R320). -/
def State.mixed (s : State) (line : Nat) : Bool := s.mapsAs 0 (line / 512) && s.mapsAs 1 (line / 512)

/-- The value that an operation at a home replies with: the word it has read there, or a free value where uncached and cacheable
mappings are in use at once. What the operation writes, and whether it traps, follow the word itself (R3, R320). -/
def State.replyFor (s : State) (pa : Nat) (w : Word) : Word :=
  if s.mixed (pa / 128) then BitVec.ofNat 32 (natOfBytes ((List.range 4).map (fun i => Config.mixedMapping (s.ticks * 128 + i)))) else w

/-! ## Counter lines (R361, R371) -/

/-- The words of a counter line. -/
structure Counter where
  pool    : Nat
  policy  : Word
  init    : Bool
  lost    : Bool
  holders : List Nat
  ceilSum : Nat
  aside   : Nat
  deriving DecidableEq, Repr

/-- The largest exact value (R362). -/
def quarryMax : Nat := 0x7FFFFFFF

/-- The counter at a line. -/
def State.counter (s : State) (line : Nat) : Counter :=
  let w := fun (i : Nat) => s.readPhysNat (line * 128 + 4 * i) 4
  let map := w 3 + w 4 * 2 ^ 32
  { pool := w 0, policy := BitVec.ofNat 32 (w 1), init := (w 2).testBit 31, lost := (w 2).testBit 30,
    holders := (List.range 64).filter (fun c => map.testBit c), ceilSum := w 5, aside := w 7 }

/-- Words 0 to 7 of a counter line with a number of waiters. -/
def Counter.bytes (k : Counter) (waiters : Nat) : List Byte :=
  let map := (k.holders.map (fun c => 2 ^ c)).sum
  bytesOfNat 4 k.pool ++ bytesOfNat 4 k.policy.toNat
    ++ bytesOfNat 4 ((if k.init then 2 ^ 31 else 0) + (if k.lost then 2 ^ 30 else 0) + k.holders.length)
    ++ bytesOfNat 8 map ++ bytesOfNat 4 k.ceilSum ++ bytesOfNat 4 waiters ++ bytesOfNat 4 k.aside

/-- The home's record of a line. -/
def State.quarryOf (s : State) (line : Nat) : QuarryHome := s.quarry.getD line {}

def State.updQuarry (s : State) (line : Nat) (f : QuarryHome → QuarryHome) : State :=
  { s with quarry := s.quarry.set line (f (s.quarryOf line)) }

/-- The counter at a line is written back, with the number of its waiters. -/
def State.putCounter (s : State) (line : Nat) (k : Counter) : State :=
  s.writePhys (line * 128) (k.bytes (s.quarryOf line).waiters.length)

/-- The counter of a struck line is LOST (R376). -/
def State.loseCounter (s : State) (line : Nat) : State :=
  if (s.quarry.get? line).isSome then
    let old := s.readPhysNat (line * 128 + 8) 4
    s.writePhys (line * 128 + 8) (bytesOfNat 4 (old ||| 0x40000000))
  else s

/-- Waiters are served from the head while ASIDE covers the head's n; with no waiter left the rest goes to POOL (R371). The fuel
is the number of waiters. -/
def State.settle : Nat → State → Nat → State
  | 0, s, line => s.putCounter line { s.counter line with
      pool := (s.counter line).pool + (s.counter line).aside, aside := 0 }
  | fuel + 1, s, line =>
    let k := s.counter line
    match (s.quarryOf line).waiters with
    | [] => s.putCounter line { k with pool := k.pool + k.aside, aside := 0 }
    | (id, n) :: rest =>
      if n ≤ k.aside then
        let s := s.updQuarry line (fun h => { h with waiters := rest })
        let s := s.putCounter line { k with aside := k.aside - n }
        let s := match s.req? id with
          | some q => s.homeReply q [.narrow (s.replyFor (line * 128) (BitVec.ofNat 32 n))]
          | none => s
        State.settle fuel s line
      else s.putCounter line k

/-- A counter line whose waiters have changed passes its units on at once (R371, R375). -/
def State.settleLine (s : State) (line : Nat) : State :=
  if (s.counter line).init then State.settle (s.quarryOf line).waiters.length s line else s

/-! ## Discarding a context (R396, R419) -/

/-- Whether a request of a discarded context is removed at once: one held at its port, in the store buffer, paused or
withdrawn (R396, R419), or a copy's (its template is IDLE). -/
def MemReq.removable (q : MemReq) : Bool :=
  (match q.stage with | .issued | .away | .performed => false | _ => true)
    || (match q.kind with | .copyRead _ | .copyWrite _ => true | _ => false)


/-- The contexts of a launch are discarded: what they hold is removed and counted down, and what is on its way is dropped
when it arrives (R396, R419). Each context lives on, discarded, until its counts are zero. -/
def State.purgeCtx (s : State) (k : Ctx) (all : Bool) : State :=
  let queued := fun (q : MemReq) =>
    s.pwaits.any (fun p => p.2.1 == q.id) || s.quarry.any (fun h => h.2.waiters.any (fun w => w.1 == q.id))
  let gone := fun (q : MemReq) => (q.removable || queued q) && k.rect.contains q.cluster && ofCtx k.ctx q.tag
  let counted := fun (q : MemReq) => match q.kind with
    | .tileLoad _ | .tileStore _ => false
    | .pref _ => q.stage == .buffered
    | _ => true
  let s := (s.reqs.filter (fun q => gone q && counted q)).foldl (fun s q => s.replyDown q.cluster q.tag) s
  let ids := (s.reqs.filter gone).map (fun q => q.id)
  let lines := (s.quarry.filter (fun h => h.2.waiters.any (fun w => ids.contains w.1))).map (fun h => h.1)
  let s := { s with reqs := s.reqs.filter (fun q => !gone q)
                    pwaits := s.pwaits.filter (fun p => !ids.contains p.2.1)
                    quarry := s.quarry.map (fun (e : Nat × QuarryHome) =>
                      (e.1, { e.2 with waiters := e.2.waiters.filter (fun w => !ids.contains w.1) })) }
  let s := lines.foldl (fun s l => (s.settleLine l).dueEvent .quarryHomeRequest { index := l }) s
  let s := k.rect.clusters.foldl (fun s c =>
    let waiting := ((s.region c).regOps.filter (fun o => o.goes k.ctx all ids
      && (match o.act with | .mma _ => false | _ => true))).length
    let held := (s.region c).heldKeys k.ctx
    let replies := (s.region c).heldReplies k.ctx
    let had := s.overflowOf c
    let s := s.updRegion c (fun r => r.purge k.ctx k.id all ids)
    let s := replies.foldl (fun s n => s.useReply c (some n)) s
    let s := ((held.foldl (fun s key => s.freeCredit c key (mkTag k.ctx 0 0)) s).slotsFreed c had).endWaits c
    let s := s.updRegion c (fun r => { r with buffer := r.buffer.filter (fun b => !ids.contains b.id) })
    let s := s.updCounts c k.ctx (fun n => { n with replies := n.replies - waiting })
    let s := (s.region c).mos.foldl (fun s e => if e.2.queue.isEmpty then s else s.dueOnce (.control c e.1)) s
    s.dueEvent .registerOpBegin { cluster := c }) s
  (s.settlePins.forgetFar.updCtx k.id (fun k => { k with killed := true })).dueEvent .contextComplete { id := k.id }

/-- The Ferry state of a queue (R379). -/
def State.ferryOf (s : State) (q : Nat) : Ferry := s.ferry.getD q {}

/-- The state with the Ferry state of a queue changed. -/
def State.updFerry (s : State) (q : Nat) (f : Ferry → Ferry) : State :=
  { s with ferry := s.ferry.set q (f (s.ferryOf q)) }

/-- The speculation of a queue is discarded (R396): the Landing and the watch go, channel counts get back what its phases took, registers and LFSR states are restored from
their copies, its context is discarded. With `stop`, no speculation starts for the queue until its next LAUNCH (R385). -/
def State.discardSpec (s : State) (q : Nat) (stop : Bool) : State :=
  match (s.ferryOf q).spec with
  | none => s
  | some x =>
    let s := (s.contexts.filter (fun k => k.launch == x.launch)).foldl (fun s k => s.purgeCtx k true) s
    let s := { s with channels := x.taken.foldl (fun (t : Table Nat) (e : Nat × Nat) => t.set e.1 (min (t.getD e.1 0 + e.2) (2 ^ 32 - 1))) s.channels }
    let s := x.tiles.foldl (fun s e => s.updRegion e.1 (fun r => { r with tiles := r.tiles.set e.2.1 e.2.2 })) s
    let s := x.accs.foldl (fun s e => s.updRegion e.1 (fun r => { r with accs := r.accs.set e.2.1 e.2.2 })) s
    let s := x.lfsrs.foldl (fun s e => s.updRegion e.1 (fun r => { r with lfsr := e.2 })) s
    let s := { s with launches := s.launches.filter (fun l => l.id != x.launch) }
    s.updFerry q (fun f => { f with spec := none, stopped := f.stopped || stop, hintStopped := f.hintStopped || stop })

/-- The queue of a context's launch, 64 where it has none. -/
def State.queueOf (s : State) (k : Ctx) : Nat := ((s.launchOf k).map (fun l => l.queue)).getD 64

/-- Taking a trap raised by a firing or an engine: the context of the tag becomes TRAPPED and an EVTYPE 1 event is posted
(R412, R414). In a speculation nothing is delivered: the speculation is discarded (R389). A discarded context takes no
trap. -/
def State.takeTrapAt (s : State) (t : Trap) (c sta : Nat) (g a b : Word) (va agen kind : Nat) (stations : List Nat) :
    State :=
  match s.ctxAt c (tagCtx g) with
  | some k =>
    if k.killed then s
    else if k.spec then s.discardSpec (s.queueOf k) true
    else (s.setTrapped k.id).trapEvent k t c sta g a b va agen kind stations
  | none => s

/-- Taking a trap whose event carries the values a and b of the firing alone (R412). -/
def State.takeTrap (s : State) (t : Trap) (c sta : Nat) (g a b : Word) : State :=
  s.takeTrapAt t c sta g a b 0 0 0 []

/-- The return from a trap: every TRAPPED context of a launch fires again, and its held BRK tokens are sent to both targets
(R208, R414); those of a saved context at its resume. -/
def State.releaseCtx (s : State) (k : Ctx) : State :=
  let s := s.updCtx k.id (fun k => { k with trapped := false })
  if k.saved then s
  else k.rect.clusters.foldl (fun s c =>
    let held := (s.region c).brkHeld.filter (fun e => ofCtx k.ctx e.2.1)
    let s := s.updRegion c (fun r => { r with brkHeld := r.brkHeld.filter (fun e => !ofCtx k.ctx e.2.1) })
    held.foldl (fun s e =>
      let r := s.recAt c e.1
      let s := (s.emitTo c e.1 r.t0 (.narrow e.2.2) e.2.1).emitTo c e.1 r.t1 (.narrow e.2.2) e.2.1
      s.flightDown c e.2.1) s) s

/-- RELEASE of a queue (R414): every TRAPPED context of its running launch. -/
def State.releaseQueue (s : State) (q : Nat) : State :=
  (s.contexts.filter (fun k => k.trapped && !k.killed && s.queueOf k == q && !k.spec)).foldl State.releaseCtx s

/-- A context has completed, or a discarded one's counts are zero: its sticky tokens, pins, groups, waves and registers go,
the templates it used are IDLE, its prefetches end and its CTX is free (R63, R205, R231, R254, R323). -/
def State.freeCtx (s : State) (k : Ctx) : State :=
  let u := k.rect.clusters.foldl (fun s c => s.updRegion c (fun r =>
    let r := r.purge k.ctx k.id false []
    { r with counts := r.counts.erase k.ctx.toNat
             exitv := r.exitv.erase k.ctx.toNat
             bases := r.bases.filter (fun e => e.1 / 256 != k.ctx.toNat) })) s
  let s := k.rect.clusters.foldl (fun t c => (t.slotsFreed c (s.overflowOf c)).endWaits c) u.settlePins
  { s with contexts := s.contexts.filter (fun n => n.id != k.id)
           reqs := s.reqs.filter (fun q => !(k.rect.contains q.cluster && ofCtx k.ctx q.tag)) }

end Machine

end Sys2Proof
end

