-- ==== Sys2Proof/Machine/Operands.lean ====
section
/-! DEFINITION. Operands and firing: which stored token a port matches (R30 to R34), when a station is matched (R31, R33,
R165), what a firing consumes (R31, R89), and how its results leave (R81, R154, R155). -/

namespace Sys2Proof.Machine

open Sys2Proof

/-- The store without its first entry of a kind. -/
def eraseFirst (p : MatchEntry → Bool) : List MatchEntry → List MatchEntry
  | [] => []
  | e :: rest => if p e then rest else e :: eraseFirst p rest

/-- A stored token or request is consumed: it no longer counts as a token in flight (R31, R61), one that stood in its input queue leaves
it (R36), and a slot is free (R40). -/
def State.takeEntry (s : State) (c : Nat) (p : MatchEntry → Bool) : State :=
  match (s.region c).store.find? p with
  | some e =>
    let had := s.overflowOf c
    let s := ((s.updRegion c (fun r => { r with store := eraseFirst p r.store })).spend c e.tag e.reply).slotsFreed c had
    (match e.queued with
     | some key => s.freeCredit c key e.tag
     | none => s)
  | none => s

/-- A pull port of a station sends its request for tag g to its producer, at most one per port and tag, once every consume
port holds a token tagged g (R33). The request counts as a token in flight. The model's choice (log 99), where R33 names no queue: the
request takes the input queue of the producer's own port with the letter of the port that asks. -/
def State.askPulls (s : State) (c st op : Nat) (r : Rec) (g : Word) : State :=
  let ports := tokenPorts op r
  if s.holds c st (ports.filter (fun p => p.2 = .consume)) g then
    (ports.filter (fun p => p.2 = .pull)).foldl (fun s p =>
      if (s.region c).asked.contains (st, p.1, g) then s
      else
        let producer := if p.1 = .a then r.a.low.toNat else r.b.low.toNat
        (s.updRegion c (fun k => { k with asked := k.asked ++ [(st, p.1, g)] })).sendToken st
          { cluster := c, station := producer, port := p.1, kind := .request, value := .narrow (BitVec.ofNat 32 st),
            tag := g }) s
  else s

/-- A station that is matched for tag g is due to fire. -/
def State.offer (s : State) (c st op : Nat) (r : Rec) (g : Word) : State :=
  if s.matched c st op r g then s.dueOnce (.fire c st g) else s

/-- The ports whose tokens the firing in hand removes: for MERGE the port that fired and port P (R165). -/
def consumedPorts (op : Nat) (r : Rec) (x : Site) : List (Port × Action) :=
  (if op = 0x05 then [(x.port, Action.consume)] ++ (if r.p.act ≠ .immediate then [(Port.p, r.p.act)] else [])
   else tokenPorts op r).filter (fun p => p.2 ≠ .sticky)

/-- A firing consumes the tokens of its consume and pull ports and the requests it answers; sticky tokens stay (R31, R33).
What still matches for the tag is due to fire in its turn. -/
def State.consume (s : State) (op : Nat) (r : Rec) : State :=
  let x := s.cur
  let s := (s.pullTargets x.cluster x.station r).foldl
    (fun s t => s.takeEntry x.cluster (fun e => e.asks x.station t x.tag)) s
  let s := (consumedPorts op r x).foldl
    (fun s p => s.takeEntry x.cluster (fun e => e.fits x.station p.1 p.2 x.tag)) s
  let s := s.updRegion x.cluster (fun k =>
    { k with asked := k.asked.filter (fun e => !(e.1 == x.station && e.2.2 == x.tag)) })
  (s.askPulls x.cluster x.station op r x.tag).offer x.cluster x.station op r x.tag

/-- A firing with its effect: it consumes its tokens, and takes its full effect unless port P suppresses it (R89). -/
def firing (op : Nat) (r : Rec) (effect : State → State) (s : State) : Host.Outcome State Fault Refusal :=
  if s.cur.go then done (effect (s.consume op r)) else done (s.consume op r)

/-- A firing that has an effect of its own when port P suppresses it (R89). -/
def firingElse (op : Nat) (r : Rec) (effect suppressed : State → State) (s : State) :
    Host.Outcome State Fault Refusal :=
  if s.cur.go then done (effect (s.consume op r)) else done (suppressed (s.consume op r))

/-- emit(target, v⟨g⟩) of R154 and R155 with a tag. -/
def State.emitTag (s : State) (t : Target) (v : Value) (g : Word) : State :=
  s.emitTo s.cur.cluster s.cur.station t v g

/-- emit(target, v⟨g⟩) with the tag of the firing. -/
def State.emit (s : State) (t : Target) (v : Value) : State := s.emitTag t v s.cur.tag

/-- send(v⟨g⟩): to every valid target of F1 and F2 (R154, R155). -/
def State.sendTag (s : State) (r : Rec) (v : Value) (g : Word) : State := (s.emitTag r.t0 v g).emitTag r.t1 v g

/-- send(v⟨g⟩) with the tag of the firing. -/
def State.send (s : State) (r : Rec) (v : Value) : State := s.sendTag r v s.cur.tag

/-- send of a narrow value. -/
def State.sendWord (s : State) (r : Rec) (v : Word) : State := s.send r (.narrow v)

/-- A trap raised by the firing in hand, with its tag and the values a and b (R410, R412). -/
def State.trapHere (s : State) (t : Trap) : State :=
  s.takeTrap t s.cur.cluster s.cur.station s.cur.tag s.cur.aw s.cur.bw

/-- A station instruction whose one result is a narrow function of the values in hand. -/
def resultOf (op : Nat) (r : Rec) (f : Site → Word) (s : State) : Host.Outcome State Fault Refusal :=
  firing op r (fun t => t.sendWord r (f s.cur)) s

end Sys2Proof.Machine
end

