-- ==== Sys2Proof/Machine/Access.lean ====
section
/-! DEFINITION. Memory requests of ports and engines (R213 to R218): their making, the wave store buffer (R220 to R225), the order
within a thread (R346 to R350), translation (R315 to R319), faults at the port (R218, R415), and performing loads and stores
(R227, R228, R336, R345), with the Landing in between for a speculation (R386, R387). -/

namespace Sys2Proof.Machine

open Sys2Proof

/-! ## Requests -/

/-- A request moves to the end of the list: requests stand in the order in which they issued. -/
def State.reqToEnd (s : State) (id : Nat) : State :=
  { s with reqs := s.reqs.filter (fun q => q.id != id) ++ s.reqs.filter (fun q => q.id == id) }

/-- The base slot that a record names at a station, for the context of a tag (R86, R205, R214). -/
def baseSlot (st : Nat) (r : Rec) (g : Word) : Nat := (tagCtx g).toNat * 256 + portOf st * 8 + r.sel / 256 % 8

/-- The opcodes of group 0xB, whose immediate is {F7, F6} (R87, R215). -/
def groupB (op : Nat) : Bool := decide (0xB0 ≤ op) && decide (op < 0xC0)

/-- The displacement of a memory-port form: sext(F6), or 0 where F6 is the operand of another port or, in group 0xB, part of the 32-bit
immediate (R91, R214, R215, R293). -/
def displacement (op : Nat) (r : Rec) : Word :=
  if groupB op ∨ (readsB op r ∧ r.b.act = .immediate) then 0 else r.f6.signExtend 32

/-- The offset of R214: an immediate port A is the whole of it. -/
def offsetOf (op : Nat) (r : Rec) (a : Word) : Word :=
  if r.a.act = .immediate then (if groupB op then a else r.f6.signExtend 32) else a + displacement op r

/-- An address is formed with a base slot of a cluster (R214). -/
def State.slotVa (s : State) (c slot : Nat) (off : Dword) : Dword := (s.region c).bases.getD slot 0 + off

/-- The virtual address of R214 for the firing in hand. -/
def State.vaOf (s : State) (op : Nat) (r : Rec) : Dword :=
  s.slotVa s.cur.cluster (baseSlot s.cur.station r s.cur.tag) ((offsetOf op r s.cur.aw).zeroExtend 64)

/-- The request of the firing in hand, before its kind's own fields. -/
def State.stationReq (s : State) (op : Nat) (r : Rec) (kind : ReqKind) (size : Nat) : MemReq :=
  { id := s.nextId, cluster := s.cur.cluster, station := s.cur.station, tag := s.cur.tag, kind := kind,
    va := s.vaOf op r, slot := baseSlot s.cur.station r s.cur.tag, off := (offsetOf op r s.cur.aw).zeroExtend 64, size := size, fmt := r.fmt, flags := r.flags, scope := BitVec.ofNat 3 (r.sel / 32),
    a := s.cur.aw, b := s.cur.bw, c := s.cur.cw, acquire := r.order % 2 == 1, release := decide (2 ≤ r.order),
    pred := r.pred, own := r.own, succ := r.succ, block := r.block.toNat, rid := BitVec.ofNat 16 s.nextId }

/-- A request is made: it counts as a reply outstanding (R61, R217). -/
def State.addReq (s : State) (q : MemReq) : State :=
  ({ s with reqs := s.reqs ++ [q], nextId := max s.nextId q.id + 1 }).replyUp q.cluster q.tag

/-- A request that leaves its port goes to translation. -/
def State.sendReq (s : State) (id : Nat) : State :=
  (s.updReq id (fun q => { q with stage := .issued })).dueEvent .pageWalk { id := id }

/-- Whether a request counts as a reply outstanding by itself: a PREF that has issued has sent its completion token, which counts from
then on (R217, R231). -/
def MemReq.counted (q : MemReq) : Bool :=
  match q.kind with
  | .pref _ => q.stage == .buffered
  | _ => true

/-- A request is over without a reply: it no longer counts as outstanding. -/
def State.endReq (s : State) (q : MemReq) : State :=
  let s := s.dropReq q.id
  if q.counted then s.replyDown q.cluster q.tag else s

/-! ## The wave store buffer (R220 to R225) -/

/-- The earlier of two waves under R29, the first on a tie. -/
def earlierWave (a b : Wave) : Wave := if waveLater (tagWave a.tag) (tagWave b.tag) then b else a

/-- The issuing wave of a thread: the earliest open wave whose chain has not finished (R222, R223). -/
def State.issuingWave (s : State) (c : Nat) (g : Word) : Option Wave :=
  match (s.region c).waves.filter (fun w =>
      w.isOpen && !w.finished && tagCtx w.tag == tagCtx g && tagSub w.tag == tagSub g) with
  | [] => none
  | w :: rest => some (rest.foldl earlierWave w)

/-- Whether operation q is next in its wave's chain (R221). -/
def chainLinks (w : Wave) (q : MemReq) : Bool :=
  match w.last with
  | none => q.pred == 0
  | some (own, succ) => (succ != 31 && succ != 0 && succ == q.own) || (q.pred != 31 && q.pred != 0 && q.pred == own)

/-- Whether the buffer would let an operation issue at once (R221, R222): one of the issuing wave, or of a wave that its exits have closed,
when its link allows (R223, log 101). -/
def State.canIssue (s : State) (q : MemReq) : Bool :=
  match s.wave? q.cluster q.block q.tag with
  | some w =>
    !w.finished && chainLinks w q
      && (!w.isOpen || (match s.issuingWave q.cluster q.tag with
        | some v => v.block == q.block && v.tag == q.tag
        | none => false))
  | none => false

/-- An operation issues: it takes its place in the chain, forms its address with its base slot as it stands (R206), and its request leaves
for memory. An MNOP accesses nothing: its token is sent at once, unless it stands for a suppressed operation (R223, R229). PREF sends its
token at issue (R231). -/
def State.issue (s : State) (q : MemReq) : State :=
  let s := s.updReq q.id (fun q => { q with va := s.slotVa q.cluster q.slot q.off })
  let s := s.updWave q.cluster q.block q.tag (fun w =>
    { w with last := some (q.own, q.succ), finished := w.finished || q.succ == 0 })
  let s := s.updRegion q.cluster (fun r => { r with buffer := r.buffer.filter (fun b => b.id != q.id) })
  match q.kind with
  | .mnop =>
    if q.silent then s.endReq q else (s.dropReq q.id).answerTo q.cluster q.station q.id q.tag (.narrow q.b) (.narrow q.b)
  | .pref _ =>
    ((s.answerTo q.cluster q.station q.id q.tag (.narrow q.b) (.narrow q.b)).reqToEnd q.id).sendReq q.id
  | _ => (s.reqToEnd q.id).sendReq q.id

/-- The first operation of the region's buffer, in the order of arrival, that can issue now, from an entry or a refusal slot (R224, R225);
none while a freeze halts the region (R421). -/
def State.nextIssue (s : State) (c : Nat) : Option MemReq :=
  (if (s.region c).halted then [] else (s.region c).buffer).findSome? (fun b =>
    match s.req? b.id with
    | some q => if s.canIssue q then some q else none
    | none => none)

/-- Refused operations take free entries in the order in which they were refused (R225: 256 entries). -/
def takeEntries : Nat → List Buffered → List Buffered
  | _, [] => []
  | 0, rest => rest
  | free + 1, b :: rest =>
    if b.refused then { b with refused := false } :: takeEntries free rest else b :: takeEntries (free + 1) rest

/-- The entries of a region's buffer in use. -/
def Region.entries (r : Region) : Nat := (r.buffer.filter (fun b => !b.refused)).length

/-- Operations issue from the buffer of a region while one can. The fuel is the number of operations held. -/
def State.drainBuffer : Nat → State → Nat → State
  | 0, s, _ => s
  | fuel + 1, s, c =>
    match s.nextIssue c with
    | some q => State.drainBuffer fuel (s.issue q) c
    | none => s.updRegion c (fun r => { r with buffer := takeEntries (256 - r.entries) r.buffer })

/-- Operations that can issue do (R225). -/
def State.pumpBuffer (s : State) (c : Nat) : State := State.drainBuffer ((s.region c).buffer.length + 1) s c

/-- An operation reaches the buffer: it issues at once where it can, and takes an entry, or its station's refusal slot while
none is free (R225). -/
def State.arriveBuffer (s : State) (q : MemReq) : State :=
  if s.canIssue q ∧ !(s.region q.cluster).halted then (s.issue q).pumpBuffer q.cluster
  else s.updRegion q.cluster (fun r =>
    { r with buffer := r.buffer ++ [{ id := q.id, refused := decide (256 ≤ r.entries) }] })

/-- The operations of a wave that DRAIN closes are passed over: each ends without a token (R212, R224). -/
def State.passOver (s : State) (c blk : Nat) (g : Word) : State :=
  let gone := s.reqs.filter (fun q => q.cluster == c && q.block == blk && q.tag == g && q.ordered && q.stage == .buffered)
  let ids := gone.map (fun q => q.id)
  let s := gone.foldl (fun s q => s.endReq q) s
  s.updRegion c (fun r => { r with buffer := r.buffer.filter (fun b => !ids.contains b.id) })

/-! ## Order within a thread (R346 to R350, R360) -/

/-- Whether a request is a read, and whether it is a write, for the fences of R350. -/
def MemReq.reads (q : MemReq) : Bool :=
  match q.kind with
  | .load | .atomic _ | .quarry _ | .phaser _ | .tileLoad _ | .streamRead _ | .copyRead _ | .descriptor _ => true
  | _ => false

def MemReq.writes (q : MemReq) : Bool :=
  match q.kind with
  | .phaser .wait | .phaser .stat => false
  | .store | .atomic _ | .quarry _ | .phaser _ | .tileStore _ | .copyWrite _ | .flagWrite => true
  | _ => false

/-- The bytes two requests name meet, by their addresses. -/
def MemReq.overlaps (p q : MemReq) : Bool :=
  decide (p.va.toNat < q.va.toNat + q.size) && decide (q.va.toNat < p.va.toNat + p.size)

/-- The cluster whose vault an aperture address names, and whether an address lies in the aperture (R324). -/
def inAperture (va : Nat) : Bool := decide (0xFFFFF80000000 ≤ va) && decide (va < 2 ^ 52)

def apertureCluster (va : Nat) : Nat := (va - 0xFFFFF80000000) / 0x2000000

/-- Whether an access issued earlier stands before another for the purposes of a fence or a release: earlier in program order,
or an unordered access issued before the other fired. -/
def MemReq.before (e q : MemReq) : Bool := if e.ordered then q.ordered else decide (e.id < q.id)

/-- Whether an access issued later stands after a fence: later in program order, or an unordered access issued after it. -/
def MemReq.after (q e : MemReq) : Bool := if q.ordered then e.ordered else decide (e.id < q.id)

/-- A copy's requests: a copy is an agent of its own, with no join edge to the thread that triggered it (R342, R356). -/
def MemReq.isCopy (q : MemReq) : Bool :=
  match q.kind with
  | .copyRead _ | .copyWrite _ => true
  | _ => false

/-- Whether the order of their thread makes request q wait for request e, which issued earlier and is not yet performed; `meet` says that
they name a byte in common. -/
def threadOrder (meet : Bool) (e q : MemReq) : Bool :=
  let fenceE := e.kind == .fence || (e.acquire && e.release && (match e.kind with | .atomic _ => true | _ => false))
  (e.ordered && q.ordered && meet && e.kind != .fence && q.kind != .fence)
    || (e.acquire && e.kind != .fence && e.ordered && q.ordered)
    || (q.release && q.kind != .fence && e.before q)
    || (q.kind == .fence && e.before q && (q.release || (q.acquire && e.reads)))
    || (fenceE && q.after e && (e.acquire || (e.release && q.writes) || q.kind == .fence))

/-- Two requests of one thread (R29). -/
def MemReq.sameThread (e q : MemReq) : Bool :=
  e.cluster == q.cluster && tagCtx e.tag == tagCtx q.tag && tagSub e.tag == tagSub q.tag

/-- Whether two writes of the flag of one channel come one after the other (R263, R438). -/
def flagOrder (e q : MemReq) : Bool := e.kind == .flagWrite && q.kind == .flagWrite && e.va == q.va

/-- Whether a request writes a record of the egress ring in the page in hand-over; EGPROD counts it once it is visible (R434). -/
def MemReq.isEgress (q : MemReq) : Bool := q.kind == .flagWrite && q.b == 1

def State.countEgress (s : State) (q : MemReq) : State :=
  if q.isEgress then { s with regs := { s.regs with egprod := s.regs.egprod + 1 } } else s

/-- Whether request q must wait for request e: the order of their thread (R346 to R350), or that of the writes of one flag. -/
def mustFollow (meet : Bool) (e q : MemReq) : Bool :=
  (!e.isCopy && !q.isCopy && e.sameThread q && threadOrder meet e q) || flagOrder e q

/-- A register operation that moves a tile between a register and memory: whether it does, and whether it reads memory (R302). -/
def RegOp.moves (o : RegOp) : Bool :=
  match o.act with
  | .tld .. | .zld .. | .tst .. | .zst .. => true
  | _ => false

def RegOp.loads (o : RegOp) : Bool :=
  match o.act with
  | .tld .. | .zld .. => true
  | _ => false

/-- The register operations of a thread that issued and whose access is still to come or not complete (R302). -/
def State.movesOf (s : State) (c : Nat) (g : Word) : List RegOp :=
  (s.region c).regOps.filter (fun o => o.moves && tagCtx o.tag == tagCtx g && tagSub o.tag == tagSub g)

/-- The register operation that a tile request moves, and the request itself of any other. -/
def MemReq.moveOf (q : MemReq) : Nat :=
  match q.kind with
  | .tileLoad o | .tileStore o => o
  | _ => q.id

/-- Whether the access of a register operation is still to be performed: it has not begun, or its request is still there. -/
def State.moveOpen (s : State) (o : RegOp) : Bool :=
  !o.begun || s.reqs.any (fun e => match e.kind with
    | .tileLoad id | .tileStore id => id == o.id
    | _ => false)

/-- Whether a release or a fence has a register operation to wait for: one that issued before it fired and whose access is not yet
performed (R302, R349, R350). -/
def State.awaitsMove (s : State) (q : MemReq) : Bool :=
  !q.isCopy && (q.release || (q.kind == .fence && q.acquire)) &&
    (s.movesOf q.cluster q.tag).any (fun o => decide (o.id < q.id) && s.moveOpen o && (q.release || o.loads))

/-- The requests that stand before one in issue order. -/
def earlierReqs : List MemReq → Nat → List MemReq
  | [], _ => []
  | e :: rest, id => if e.id = id then [] else e :: earlierReqs rest id

/-- The accesses of a thread that have issued and are not performed, register operations among them: a copy begins after them
(R302, R356). -/
def State.issuedOf (s : State) (c : Nat) (g : Word) : List Nat :=
  (s.reqs.filter (fun q => q.cluster == c && tagCtx q.tag == tagCtx g && tagSub q.tag == tagSub g
    && q.stage != .buffered && q.stage != .performed && !q.isCopy)).map MemReq.moveOf
    ++ ((s.movesOf c g).filter (fun o => !o.begun)).map (fun o => o.id)

/-- The credit key of a trigger queue. -/
def triggerKey (k : Nat) : Nat := (0x13C0 + k) * 8

/-- A device id is unknown when its ROUTE entry is 0 or when it equals DEVID (R430). -/
def State.unknownDevice (s : State) (d : Nat) : Bool :=
  s.regs.route.getD d 0 == 0 || d == s.regs.devid.toNat % 4096

/-! ## Faults at the port (R218, R412, R415) -/

/-- The access kind of an event (R410 KIND). -/
def MemReq.kindCode (q : MemReq) (malformed : Bool) : Nat :=
  if malformed then 4
  else match q.kind with
    | .atomic _ => 2
    | .quarry _ => 3
    | .phaser .wait | .phaser .stat => 0
    | _ => if q.writes then 1 else 0

/-- A request is given up: what it counts as outstanding goes, and a register transfer leaves its register as it stands (R419). -/
def State.abandonReq (s : State) (q : MemReq) : State :=
  let s := s.endReq q
  match q.kind with
  | .tileLoad id | .tileStore id =>
    (s.updRegion q.cluster (fun r => { r with regOps := r.regOps.filter (fun o => o.id != id) })).dueOnce
      (.event .registerOpBegin { cluster := q.cluster })
  | _ => s

/-- A request is held at its port by a fault (R218): in a speculation without an event (R389), otherwise with an EVTYPE 1 event
(R412). A copy stops (R260), and the streamed operand of an MO has its own course (R416). -/
def State.holdReq (s : State) (q : MemReq) (t : Trap) (va : Nat) (malformed : Bool) : State :=
  let s := s.updReq q.id (fun q => { q with stage := .held t })
  match s.ctxAt q.cluster (tagCtx q.tag) with
  | some k =>
    if k.killed then s.abandonReq q
    else match q.kind with
      | .streamRead m => s.dueEvent .moStreamFault { cluster := q.cluster, index := m, id := q.id, amount := some va,
                                                     go := malformed }
      | .copyRead n | .copyWrite n =>
        if k.spec then s else s.dueEvent .copyFault { cluster := q.cluster, index := n, id := q.id, amount := some va }
      | _ => if k.spec then s else s.trapEvent k t q.cluster q.station q.tag q.a q.b va q.agen (q.kindCode malformed) []
  | none => s

/-! ## Memory as a context sees it (R387) -/

/-- The speculation whose context a tag names in a cluster, with its queue. -/
def State.specOf (s : State) (c : Nat) (g : Word) : Option (Nat × Speculation) :=
  match s.ctxAt c (tagCtx g) with
  | some k =>
    if k.spec && !k.killed then
      let q := s.queueOf k
      ((s.ferryOf q).spec).map (fun x => (q, x))
    else none
  | none => none

/-- A line of memory as a context sees it: its Landing bytes merged over memory (R387). -/
def State.lineFor (s : State) (c : Nat) (g : Word) (line : Nat) : Wide :=
  match s.specOf c g with
  | some (_, x) =>
    match x.landing.get? line with
    | some l =>
      (List.range 128).foldl (fun v i => if l.mask.getLsbD i then setWideByte v i (wideByte l.data i) else v)
        (s.lineNow line)
    | none => s.lineNow line
  | none => s.lineNow line

/-! ## Translation (R315 to R319) -/

/-- What a walk comes to. -/
inductive Walk where
  | leaf (addr entry level : Nat)
  | fault (t : Trap) (malformed : Bool)
  | demand (addr : Nat)
  deriving DecidableEq, Repr

/-- Whether a table lies in local HBM4 and is aligned to its size (R315). -/
def tableOk (pa size : Nat) : Bool := decide (pa < 2 ^ 39) && pa % size == 0

/-- The table size of a level (R315). -/
def tableSize (level : Nat) : Nat := if level = 0 then 65536 else if level = 3 then 256 else 4096

/-- The index into a level's table (R315). -/
def levelIndex (level va : Nat) : Nat :=
  if level = 0 then bits va 51 39 else if level = 1 then bits va 38 30 else if level = 2 then bits va 29 21
  else bits va 20 16

/-- A valid leaf that R317 and R318 accept. -/
def leafOk (level entry : Nat) : Bool :=
  bits entry 63 52 == 0 && bits entry 15 8 == 0 && bits entry 4 3 != 3
    && entry / 2 ^ 16 % 2 ^ 36 * 65536 % 2 ^ pageBits level == 0

/-- A walk from a level down, of entries read as given (R315, R318). The fuel is the number of levels left. -/
def walkFrom (read : Nat → Nat) (va : Nat) : Nat → Nat → Nat → Walk
  | 0, _, _ => .fault .access true
  | fuel + 1, level, table =>
    if !tableOk table (tableSize level) then .fault .access true
    else
      let addr := table + 8 * levelIndex level va
      let entry := read addr
      if entry % 2 = 0 then
        (if level = 3 ∧ bits entry 3 2 = 1 then .demand addr else .fault .page false)
      else if entry / 2 % 2 = 1 then
        (if level = 0 ∨ !leafOk level entry then .fault .access true else .leaf addr entry level)
      else if level = 3 ∨ bits entry 63 52 ≠ 0 ∨ bits entry 7 2 ≠ 0 then .fault .access true
      else walkFrom read va fuel (level + 1) (bits entry 51 8 * 256)

/-- The entry addresses that a walk reads (R315). -/
def walkEntries (read : Nat → Nat) (va : Nat) : Nat → Nat → Nat → List Nat
  | 0, _, _ => []
  | fuel + 1, level, table =>
    if !tableOk table (tableSize level) then []
    else
      let addr := table + 8 * levelIndex level va
      let entry := read addr
      addr :: (if entry % 4 = 1 then walkEntries read va fuel (level + 1) (bits entry 51 8 * 256) else [])

/-- The walk of a virtual address from a root, through memory (R315). -/
def State.walk (s : State) (root va : Nat) : Walk := walkFrom (fun a => s.readPhysNat a 8) va 4 0 root

/-- The entries that the walk of a virtual address reads. -/
def State.walkLines (s : State) (root va : Nat) : List Nat := walkEntries (fun a => s.readPhysNat a 8) va 4 0 root

/-- A table entry as a context sees it: with the bytes that its speculation has written (R387). -/
def State.entryFor (s : State) (c : Nat) (g : Word) (a : Nat) : Nat :=
  ((s.lineFor c g (a / 128)).extractLsb' (8 * (a % 128)) 64).toNat

/-- The walk of a virtual address for a context, and the entries it reads. -/
def State.walkFor (s : State) (c : Nat) (g : Word) (root va : Nat) : Walk := walkFrom (s.entryFor c g) va 4 0 root

def State.entriesFor (s : State) (c : Nat) (g : Word) (root va : Nat) : List Nat := walkEntries (s.entryFor c g) va 4 0 root

def leafW (l : Nat) : Bool := l / 4 % 2 == 1

def leafShr (l : Nat) : Bool := l / 32 % 2 == 1

/-- The checks after a valid leaf (R318, R324, R339): the trap, if one fails. -/
def leafFault (va leaf level : Nat) (write : Bool) : Option Trap :=
  if write && !leafW leaf then some .access
  else if inAperture va != (leafMt leaf == 2) then some .access
  else if inAperture va && (level != 3 || leafShr leaf) then some .access
  else none

/-- Whether an address names one of the slots of a vault that the device reserves (R19, R324). -/
def inReserve (va : Nat) : Bool := inAperture va && decide (480 ≤ (va - 0xFFFFF80000000) % 0x2000000 / 65536)

/-- What a translation comes to, with the entries that it reads: a cached leaf may serve in place of the walk, as R319 leaves open, and an
address that names nothing is looked up nowhere. -/
def State.lookUp (s : State) (c : Nat) (g : Word) (root va : Nat) : Walk × List Nat :=
  let cached := (s.region c).tlb.find? (fun t => t.root.toNat == root && t.page == va / 2 ^ pageBits t.level)
  if 2 ^ 52 ≤ va then (.fault .page false, [])
  else if inReserve va then (.fault .access false, [])
  else match (if Config.pick (s.ticks + 1) % 2 = 1 then cached else none) with
    | some t => (.leaf t.entry t.leaf.toNat t.level, [])
    | none => (s.walkFor c g root va, s.entriesFor c g root va)

/-- A translation (R315 to R319). -/
def State.translate (s : State) (c : Nat) (g : Word) (root va : Nat) (write : Bool) :
    Except (Option Nat × Trap × Bool) Translation :=
  let w := s.lookUp c g root va
  match w.1 with
  | .fault t m => .error (none, t, m)
  | .demand a => .error (some a, .page, false)
  | .leaf addr entry level =>
    match leafFault va entry level write with
    | some t => .error (none, t, false)
    | none =>
      let page := entry / 2 ^ 16 % 2 ^ 36 * 65536
      .ok { pa := page + va % 2 ^ pageBits level, leaf := entry, level := level, entry := addr, walked := w.2 }

/-- The root and QCTL of the launch of a request's context (R315, R399). -/
def State.rootOf (s : State) (c : Nat) (g : Word) : Nat :=
  ((s.ctxAt c (tagCtx g)).bind s.launchOf |>.map (fun l => l.root.toNat)).getD 0

def State.qctlOf (s : State) (c : Nat) (g : Word) : Word :=
  ((s.ctxAt c (tagCtx g)).bind s.launchOf |>.map (fun l => l.qctl)).getD 0

/-! ## Turns (R226, R346, R360) -/

/-- The physical places that an address of a thread may stand for: by the walk, and by each translation that its cluster has cached. -/
def State.placesOf (s : State) (c : Nat) (g : Word) (va : Nat) : List Nat :=
  let root := s.rootOf c g
  let at_ := fun (leaf level : Nat) => leaf / 2 ^ 16 % 2 ^ 36 * 65536 + va % 2 ^ pageBits level
  (match s.walkFor c g root va with | .leaf _ e l => [at_ e l] | _ => [])
    ++ ((s.region c).tlb.filter (fun t => t.root.toNat == root && t.page == va / 2 ^ pageBits t.level)).map
      (fun t => at_ t.leaf.toNat t.level)

/-- The runs of physical bytes that a request may name, one for each line it meets. -/
def State.runsOf (s : State) (q : MemReq) : List (Nat × Nat) :=
  let va := q.va.toNat
  let k := min q.size (128 - va % 128)
  let run := fun (a n : Nat) => (s.placesOf q.cluster q.tag a).map (fun p => (p, n))
  run va k ++ (if k < q.size then run (va + k) (q.size - k) else [])

/-- Whether two requests of a thread name a byte in common, by their addresses or through two mappings of one page (R226, R346). -/
def State.meets (s : State) (e q : MemReq) : Bool :=
  e.overlaps q || (s.runsOf e).any (fun a => (s.runsOf q).any (fun b => decide (a.1 < b.1 + b.2) && decide (b.1 < a.1 + a.2)))

/-- Whether a request may be performed now: nothing that issued earlier has to come first. -/
def State.mayPerform (s : State) (q : MemReq) : Bool :=
  (earlierReqs s.reqs q.id).all (fun e =>
    e.stage == .performed || e.stage == .buffered
      || !mustFollow (e.sameThread q && e.ordered && q.ordered && s.meets e q) e q)
    && !s.awaitsMove q

/-- Whether an operation waits at its home for units or for a phase: the request has been performed there, all but its reply. -/
def State.waitsHome (s : State) (id : Nat) : Bool :=
  s.pwaits.any (fun p => p.2.1 == id) || s.quarry.any (fun h => h.2.waiters.any (fun w => w.1 == id))

/-- Whether a request at a vault port has to let another go first that its memory port sent there before it (R326, R360). One that its port
holds has not been sent, and one that waits at its home is in no one's way. -/
def State.portBehind (s : State) (q : MemReq) : Bool :=
  s.reqs.any (fun e => e.cluster == q.cluster && portOf e.station == portOf q.station && decide (0x1100 ≤ e.station)
    && decide (0x1100 ≤ q.station)
    && (match e.sent, q.sent with
        | some (v, n), some (w, m) => v == w && decide (n < m)
        | _, _ => false)
    && (match e.stage with | .held _ | .paused | .withdrawn | .performed => false | _ => true) && !s.waitsHome e.id)

/-- The access in hand of a request is sent to a vault port; one sent before keeps its place. -/
def State.sendVault (s : State) (q : MemReq) (v : Nat) : State :=
  let kept := match q.sent with | some (w, _) => w == v | none => false
  let s := if kept then s
    else { s with nextId := s.nextId + 1 }.updReq q.id (fun q => { q with sent := some (v, s.nextId) })
  s.dueEvent .vaultAccess { cluster := v, id := q.id }

/-- Whether the free-page ring holds a page (R398, R415). -/
def State.hasFreePage (s : State) : Bool := s.regs.fpprod != s.regs.fpcons

/-- A translation fault of a request: a demand entry is serviced where the device may, and every other fault holds the request
at its port (R218, R389, R415). -/
def State.walkFault (s : State) (q : MemReq) (va : Nat) (f : Option Nat × Trap × Bool) : State :=
  match f.1 with
  | some entry =>
    if s.hasFreePage && !(s.qctlOf q.cluster q.tag).getLsbD 4 && !s.isSpec q.cluster q.tag then
      s.dueEvent .demandPageService { id := q.id, index := entry, amount := some va }
    else s.holdReq q f.2.1 va f.2.2
  | none => s.holdReq q f.2.1 va f.2.2

/-! ## The Landing and the read set (R386, R387) -/

/-- The lines of a run of bytes of which its speculation has not written every byte (R386); none outside a speculation. -/
def State.readLines (s : State) (c : Nat) (g : Word) (pa n : Nat) : List Nat :=
  match s.specOf c g with
  | none => []
  | some (_, x) =>
    let own := fun (i : Nat) => match x.landing.get? ((pa + i) / 128) with
      | some l => l.mask.getLsbD ((pa + i) % 128)
      | none => false
    (((List.range n).filter (fun i => !own i)).map (fun i => (pa + i) / 128)).eraseDups

/-- The lines of the entries that a walk has read (R386). -/
def State.entryLines (s : State) (c : Nat) (g : Word) (walked : List Nat) : List Nat :=
  ((walked.map (fun a => s.readLines c g a 8)).flatten).eraseDups

/-- Lines added to the read set of a context's speculation (R386). -/
def State.watchLines (s : State) (c : Nat) (g : Word) (lines : List Nat) : State :=
  match s.specOf c g with
  | none => s
  | some (q, x) =>
    s.updFerry q (fun f => { f with spec := some { x with reads := x.reads ++ lines.filter (fun l => !x.reads.contains l) } })

/-- A speculation's read adds the lines of bytes it has not written to its read set (R386). -/
def State.watch (s : State) (c : Nat) (g : Word) (pa n : Nat) : State := s.watchLines c g (s.readLines c g pa n)

/-- Whether lines that a speculation would read keep it inside the 65,536 lines of R386. -/
def State.watchFits (s : State) (c : Nat) (g : Word) (lines : List Nat) : Bool :=
  match s.specOf c g with
  | none => true
  | some (_, x) => decide (x.reads.length + (lines.eraseDups.filter (fun l => !x.reads.contains l)).length ≤ 65536)

/-- The effects of a translation: A, and D for a write, are set in the entry at its home, where it still is the leaf that was
read (R318), at the new home of a page in hand-over (R338), and the cluster caches the leaf (R319), unless a speculation has read it among its own writes. A speculation's D waits for
the claim (R390), and its walk adds the lines of the entries it read to the read set (R386). -/
def State.markLeaf (s : State) (c : Nat) (g : Word) (root va : Nat) (t : Translation) (write : Bool) : State :=
  let spec := s.specOf c g
  let now := s.readPhysNat t.entry 8
  let want := now ||| 0x40 ||| (if write && spec.isNone then 0x80 else 0)
  let own := match spec with
    | some (_, x) => t.walked.any (fun a => (x.landing.get? (a / 128)).isSome)
    | none => false
  let lines := s.entryLines c g t.walked
  let s := if now ||| 0xC0 ≠ t.leaf ||| 0xC0 ∨ want = now then s
    else if s.inLentPage t.entry then s.forwardMark t.entry now want
    else s.writePhysBy t.entry (bytesOfNat 8 want) (spec.map (·.1))
  let s := s.watchLines c g lines
  let s := match s.specOf c g with
    | some (q, x) =>
      if write then s.updFerry q (fun f => { f with spec := some { x with dirty := (t.entry :: x.dirty).eraseDups } }) else s
    | none => s
  let e : Cached := { root := BitVec.ofNat 64 root, level := t.level, page := va / 2 ^ pageBits t.level,
                      leaf := BitVec.ofNat 64 t.leaf, entry := t.entry }
  if own then s
  else s.updRegion c (fun r =>
    { r with tlb := e :: r.tlb.filter (fun o => !(o.root == e.root && o.level == e.level && o.page == e.page)) })

/-- The bytes of one line for a context: those of its Landing over those of memory (R387). -/
def State.bytesFor (s : State) (c : Nat) (g : Word) (pa n : Nat) : List Byte :=
  (List.range n).map (fun i => wideByte (s.lineFor c g ((pa + i) / 128)) ((pa + i) % 128))

/-- The bytes of one line that a context reads: free values where uncached and cacheable mappings are in use at once (R320). -/
def State.readFor (s : State) (c : Nat) (g : Word) (pa n : Nat) : List Byte :=
  if s.mixed (pa / 128) then (List.range n).map (fun i => Config.mixedMapping (s.ticks * 128 + i)) else s.bytesFor c g pa n

/-- Landing lines in use on a die, by every speculation (R387). -/
def State.landingOnDie (s : State) (d : Nat) : Nat :=
  (s.ferry.map (fun e => match e.2.spec with
    | some x => (x.landing.filter (fun l => homeDie (l.1 * 128) == d)).length
        + ((x.tiles.filter (fun t => dieOf t.1 == d)).length * 131)
        + ((x.accs.filter (fun t => dieOf t.1 == d)).length * 513)
    | none => 0)).sum

/-- The Landing lines of one speculation, register copies among them (R387, R390): 131 lines of a tile with its plane and
control register, 513 of an accumulator. -/
def Speculation.lines (x : Speculation) : Nat :=
  x.landing.length + 131 * x.tiles.length + 513 * x.accs.length

/-- Whether a write of a speculation finds Landing room (R387). -/
def State.landingFits (s : State) (c : Nat) (g : Word) (pa n : Nat) : Bool :=
  match s.specOf c g with
  | none => true
  | some (_, x) =>
    let fresh := (((List.range n).map (fun i => (pa + i) / 128)).eraseDups).filter (fun l => (x.landing.get? l).isNone)
    decide (x.lines + fresh.length ≤ 32768)
      && fresh.all (fun l => decide (s.landingOnDie (homeDie (l * 128)) + fresh.length ≤ 131072))

/-- A speculation writes one byte into the Landing. -/
def landByte (x : Speculation) (pa : Nat) (b : Byte) : Speculation :=
  let l := x.landing.getD (pa / 128) { mask := 0, data := 0 }
  { x with landing := x.landing.set (pa / 128)
             { mask := l.mask ||| (1 <<< (pa % 128)), data := setWideByte l.data (pa % 128) b } }

/-- A write to bytes of one line by a context: into the Landing for a speculation, otherwise to memory, visible to every agent
at once (R345, R387). A discarded context's writes go nowhere. -/
def State.writeFor (s : State) (c : Nat) (g : Word) (pa : Nat) (bytes : List Byte) : State :=
  match s.specOf c g with
  | some (q, x) =>
    let y := (bytes.zip (List.range bytes.length)).foldl (fun x (b, i) => landByte x (pa + i) b) x
    s.updFerry q (fun f => { f with spec := some y })
  | none => if s.isSpec c g then s else s.writePhys pa bytes

end Sys2Proof.Machine
end

