-- ==== Sys2Proof/Machine/Coherence.lean ====
section
/-! DEFINITION. The coherence of lines (R328 to R335): the L1 of a cluster, the point of a die with its L2 and the record of its L1
holders, the home directory of a line, and the eleven messages between them. A message is an event whose `msg` says who sent it to whom.
A point and a home serve the requests for one line one at a time, in the order of arrival. `State.mem` holds the bytes that every agent
reads at this instant, and the copies of a line hold the same (assumption log 12). -/

namespace Sys2Proof.Machine

open Sys2Proof

/-! ## Records -/

/-- A die's record, and the state with it changed. -/
def State.die (s : State) (d : Nat) : Die := s.dies.getD d {}

def State.updDie (s : State) (d : Nat) (f : Die → Die) : State := { s with dies := s.dies.set d (f (s.die d)) }

/-- The home directory entry of a line, and the state with it changed. A line of a page that stands in a vault slot is held in M by the
slot's cluster alone (R326). -/
def State.dirOf (s : State) (line : Nat) : DirEntry :=
  let e := s.dir.getD line {}
  match s.residentSlot (line / 512) with
  | some (c, _) => { e with dies := [LineState.i, .i, .i, .i].set (dieOf c) .m, host := .i }
  | none => e

def State.updDir (s : State) (line : Nat) (f : DirEntry → DirEntry) : State :=
  { s with dir := s.dir.set line (f (s.dirOf line)) }

/-- The home die of a line (R314). -/
def homeOf (line : Nat) : Nat := homeDie (line * 128)

/-- The HBM4 stack that holds a line: 2 × die + PA[7] (R314). -/
def stackOf (line : Nat) : Nat := 2 * homeOf line + line % 2

/-- The L2 slice of a line on a die: PA[11:8] ^ PA[15:12] (R314). -/
def sliceIndex (line : Nat) : Nat := Nat.xor (line / 2 % 16) (line / 32 % 16)

/-- The home slice of a line, numbered over the device (R314). -/
def sliceOf (line : Nat) : Nat := homeOf line * 16 + sliceIndex line

/-- The set of a line in the L2 of a die, numbered over its 16 slices of 2,048 sets (R20). Which address bits choose the set within a slice
is a DESIGN CHOICE, log 111. -/
def l2Set (line : Nat) : Nat := sliceIndex line * 2048 + (line % 2 + 2 * (line / 32)) % 2048

/-- Whether a line is one of host memory, whose standing die serves it (R314). -/
def isHostLine (line : Nat) : Bool := line * 128 / 2 ^ 48 % 16 == 4

/-- Whether no cache may take a copy of a line: its page stands in a vault slot (R326) or is in hand-over (R338). -/
def State.offCache (s : State) (line : Nat) : Bool := (s.residentSlot (line / 512)).isSome || s.inLentPage (line * 128)

/-- The die-level state of a line on a die (R333). -/
def State.dieState (s : State) (line d : Nat) : LineState := (s.dirOf line).dies.getD d .i

/-- The L1 holders that a die records for a line (R330). -/
def State.holdersOf (s : State) (d line : Nat) : List (Nat × LineState) := (s.die d).holders.getD line []

/-- The holder record without a cluster. -/
def without (c : Nat) (h : List (Nat × LineState)) : List (Nat × LineState) := h.filter (fun e => e.1 != c)

/-- The state with the holders of a line changed. -/
def State.setHolders (s : State) (d line : Nat) (h : List (Nat × LineState)) : State :=
  s.updDie d (fun k => { k with holders := if h.isEmpty then k.holders.erase line else k.holders.set line h })

/-- A coherence message is on its way. -/
def State.post' (s : State) (i : Instr) (m : Msg) : State := s.dueEvent i { msg := m }

/-- The bytes of a line are in memory, or in the vault slot of its page. -/
def State.saveLine (s : State) (line : Nat) (v : Wide) : State :=
  match s.residentSlot (line / 512) with
  | some (c, n) => s.updRegion c (fun r =>
      { r with vaultBytes := r.vaultBytes.putRange (n * 65536 + line % 512 * 128) (wideBytes v) })
  | none => { s with mem := s.mem.putRange (line * 128) (wideBytes v) }

/-! ## The L1 (R321, R322) -/

/-- The pinned lines of a set. -/
def Region.pinnedLine (r : Region) (line : Nat) : Bool := r.pins.any (fun p => !p.page && p.item == line)

/-- An L1 line leaves for the eviction buffer: EVD with its data when it is modified, EVS otherwise (R332). -/
def State.evictLine (s : State) (c line : Nat) : State :=
  match (s.region c).l1.get? line with
  | none => s
  | some l =>
    let s := s.updRegion c (fun r => { r with l1 := r.l1.erase line, evicting := r.evicting.set line l })
    let m : Msg := { src := .l1 c, dst := .die (dieOf c), line := line, requester := .l1 c, state := l.state,
                     data := if l.state = .m then some l.data else none }
    s.post' (if l.state = .m then .evd else .evs) m

/-- A line enters the L1 in a granted state; where its set of 12 ways is full, an unpinned way is evicted first. A pinned line
keeps its way while its data is gone (R321, R322). -/
def State.installLine (s : State) (c line : Nat) (st : LineState) (v : Wide) : State :=
  let r := s.region c
  let mates := (r.l1.filter (fun e => e.1 % 512 == line % 512 && e.1 != line)).map (fun e => e.1)
  let free := mates.filter (fun l => !r.pinnedLine l)
  let pinned := (r.pins.filter (fun p => !p.page && p.item % 512 == line % 512 && p.item != line)).map (fun p => p.item)
  let absent := (pinned.filter (fun l => !mates.contains l)).eraseDups
  let s := if 12 ≤ mates.length + absent.length ∧ free.length > 0
    then s.evictLine c (free.getD (Config.victim s.ticks % free.length) 0) else s
  s.updRegion c (fun r => { r with l1 := r.l1.set line { state := st, data := v } })

/-- Whether a cluster's L1 serves an access to a line: any state for a read, M or E for a write (R331). -/
def State.l1Serves (s : State) (c line : Nat) (write : Bool) : Bool :=
  match (s.region c).l1.get? line with
  | some l => !write || l.state == .m || l.state == .e
  | none => false

/-- PERF counter 4 counts a miss of a cluster's L1 (R210). -/
def State.countMiss (s : State) (c : Nat) : State := s.updRegion c (fun r => { r with perf := r.perf.set 4 (r.perf.getD 4 0 + 1) })

/-- An L1 miss: PERF counter 4 counts it where `counts` says so, and the die's point is asked for the line, unless a request of the cluster
for it is on its way (R210, R330). A line in the eviction buffer is asked for once EACK has come. -/
def State.askLine (s : State) (c line : Nat) (write : Bool) (id : Nat) (counts : Bool) : State :=
  let r := s.region c
  let asked := s.reqs.any (fun o => o.id != id && o.cluster == c && o.stage == .away && o.waits.contains line)
  if (r.evicting.get? line).isSome then s.dueEvent .pageWalk { id := id }
  else
    let s := if counts then s.countMiss c else s
    let s := s.updReq id (fun q => { q with stage := .away, waits := [line] })
    let i : Instr := if !write then .rds else if (r.l1.get? line).isSome then .upg else .rdx
    if asked then s
    else s.post' i { src := .l1 c, dst := .die (dieOf c), line := line, requester := .l1 c, state := .i, data := none }

/-- The requests of a cluster that wait for a line go on. -/
def State.wakeLine (s : State) (c line : Nat) : State :=
  let woken := s.reqs.filter (fun q => q.cluster == c && q.stage == .away && q.waits.contains line)
  woken.reverse.foldl (fun s q =>
    (s.updReq q.id (fun q => { q with stage := .issued, waits := [] })).dueNow .pageWalk { id := q.id }) s

/-- A cluster drops its copy of a line, or keeps it in S (`keep`); the state it had. A copy in the eviction buffer answers in
its place (R332). -/
def State.giveLine (s : State) (c line : Nat) (keep : Bool) : Option L1Line × State :=
  let r := s.region c
  match r.l1.get? line with
  | some l =>
    (some l, s.updRegion c (fun r =>
      { r with l1 := if keep then r.l1.set line { l with state := .s } else r.l1.erase line }))
  | none =>
    match r.evicting.get? line with
    | some l =>
      (some l, s.updRegion c (fun r => { r with evicting := r.evicting.set line { l with state := .s } }))
    | none => (none, s)

/-! ## Turns (R331, R333) -/

/-- The keys of a die's requests in progress: a line's own request, and a forward from the home. -/
def ownKey (line : Nat) : Nat := 2 * line

def forwardKey (line : Nat) : Nat := 2 * line + 1

/-- The rank of a request among those of one cycle: the cluster at a die point, where a prefetch of the die's own comes last, and the die at
a home, with the host after the die whose port carries it (R331, R333, R432). -/
def rankOf (dst src : Node) (line : Nat) : Nat :=
  match dst, src with
  | .home _, .die d => 2 * d
  | .home _, _ => 2 * (line % 2) + 1
  | _, .l1 c => c
  | _, _ => 64

/-- A request takes its place among those that wait: after all that came in an earlier cycle, and by rank in its own. -/
def insertWaiting (w : Waiting) : List Waiting → List Waiting
  | [] => [w]
  | x :: rest => if x.cycle = w.cycle ∧ w.rank < x.rank then w :: x :: rest else x :: insertWaiting w rest

/-- Whether a request of lower rank for the line could still arrive at a point or home in this cycle. -/
def State.rival (s : State) (dst : Node) (line rank : Nat) : Bool :=
  s.agenda.any (fun a => match a with
    | .event .rds x | .event .rdx x | .event .upg x =>
      !x.hasC && x.msg.dst == dst && x.msg.line == line && decide (rankOf dst x.msg.src line < rank)
    | .event .hostCoherentRequest x =>
      !x.hasC && dst == .home (homeOf line) && x.host.addr / 128 == line && decide (rankOf dst .host line < rank)
    | _ => false)

/-- A point or home looks at what waits there again; a request of the host looks for itself. -/
def State.lookAgain (s : State) (w : Waiting) : State :=
  if w.instr = .hostCoherentRequest then s else s.dueOnce (.event w.instr { w.site with hasC := true })

/-! ## The L2 of a die and its snoop filter (R20, R328, R334, R335) -/

/-- A die's L2 holds a line. -/
def State.fillL2 (s : State) (d line : Nat) (v : Wide) (dirty : Bool) : State :=
  s.updDie d (fun k =>
    let was : Bool := match k.l2.get? line with | some l => l.dirty | none => false
    { k with l2 := k.l2.set line { data := v, dirty := dirty || was } })

/-- A line that a die's L2 holds is modified there. -/
def State.dirtyL2 (s : State) (d line : Nat) : State :=
  s.updDie d (fun k => { k with l2 := updEntry k.l2 line (fun l => { l with data := s.lineNow line, dirty := true }) })

/-- Every L1 copy of a line on a die goes, a modified one into the L2: the recall before an eviction of the L2 or of the snoop filter
(R328, R335). -/
def State.recallL1 (s : State) (d line : Nat) : State :=
  let s := (s.holdersOf d line).foldl (fun s h =>
    let g := s.giveLine h.1 line false
    match g.1 with
    | some l => if l.state = .m then g.2.dirtyL2 d line else g.2
    | none => g.2) s
  s.setHolders d line []

/-- Whether a request for a line is in progress at some point or at its home: such a line keeps its place. -/
def State.lineBusy (s : State) (line : Nat) : Bool :=
  s.dies.any (fun e => (e.2.txns.get? (ownKey line)).isSome || (e.2.txns.get? (forwardKey line)).isSome)
    || (s.dir.getD line {}).txn.isSome

/-- The home's L2 gives up a line (R328): every L1 copy of the die and every copy on other dies and at the host is recalled, and the data is
in HBM4 or at the host. -/
def State.evictHome (s : State) (d line : Nat) : State :=
  let s := s.recallL1 d line
  let s := (List.range 4).foldl (fun s a =>
    if a = d ∨ s.dieState line a = .i then s
    else (s.recallL1 a line).updDie a (fun k => { k with l2 := k.l2.erase line })) s
  let s := s.updDir line (fun e => { e with dies := [.i, .i, .i, .i], host := .i })
  (s.saveLine line (s.lineNow line)).updDie d (fun k => { k with l2 := k.l2.erase line })

/-- A die's L2 gives up a line: a line of its own as its home, any other into the eviction buffer, with EVD from O or M and EVS otherwise
(R328, R333, R334). -/
def State.evictL2 (s : State) (d line : Nat) : State :=
  if homeOf line = d then s.evictHome d line
  else
    let s := s.recallL1 d line
    match (s.die d).l2.get? line with
    | none => s
    | some l =>
      let st := s.dieState line d
      let owner := st == .m || st == .o || l.dirty
      let s := s.updDie d (fun k => { k with l2 := k.l2.erase line, evicting := k.evicting.set line { l with dirty := owner } })
      s.post' (if owner then .evd else .evs)
        { src := .die d, dst := .home (homeOf line), line := line, requester := .die d, state := st,
          data := if owner then some (s.lineNow line) else none }

/-- A die's L2 with room for a line (R20): 16 ways in each set. None where every way is busy, or the eviction buffer of 64 entries is full
(R334). -/
def State.allocate (s : State) (d line : Nat) : Option State :=
  if ((s.die d).l2.get? line).isSome || s.offCache line then some s
  else
    let mates := ((s.die d).l2.filter (fun e => l2Set e.1 == l2Set line)).map (fun e => e.1)
    if mates.length < 16 then some (s.fillL2 d line (s.lineNow line) false)
    else
      let free := mates.filter (fun l => !s.lineBusy l && (homeOf l == d || decide ((s.die d).evicting.length < 64)))
      match free[Config.victim s.ticks % max 1 free.length]? with
      | some v => some ((s.evictL2 d v).fillL2 d line (s.lineNow line) false)
      | none => none

/-- The snoop filter of a die with room for a line homed on another die or on the host: 16 entries in each of 8,192 sets (R20, R335). None
where every entry of the set is busy. Which address bits index the sets is DESIGN CHOICE (log 111): PA[19:7]. -/
def State.makeRoom (s : State) (d line : Nat) : Option State :=
  if (homeOf line = d ∧ !isHostLine line) ∨ ((s.die d).holders.get? line).isSome then some s
  else
    let mates := ((s.die d).holders.filter (fun e =>
      (homeOf e.1 != d || isHostLine e.1) && e.1 % 8192 == line % 8192)).map (fun e => e.1)
    if mates.length < 16 then some s
    else
      let free := mates.filter (fun l => !s.lineBusy l)
      match free[Config.victim s.ticks % max 1 free.length]? with
      | some v => some (s.recallL1 d v)
      | none => none

/-! ## The die point (R330, R331) -/

/-- The state with a request in progress at a die's point. -/
def State.setTxn (s : State) (d key : Nat) (t : Txn) : State := s.updDie d (fun k => { k with txns := k.txns.set key t })

/-- What waits at a die's point for a line. -/
def State.waitingAt (s : State) (d line : Nat) : List Waiting := (s.die d).waiting.getD line []

/-- The point of a die looks at the next request for a line. -/
def State.nextAtPoint (s : State) (d line : Nat) : State :=
  match s.waitingAt d line with
  | w :: _ => s.lookAgain w
  | [] => s

/-- A request at a die's point is complete, and the next one for the line may begin (R331). -/
def State.completePoint (s : State) (d line : Nat) : State :=
  (s.updDie d (fun k => { k with txns := k.txns.erase (ownKey line) })).nextAtPoint d line

/-- Whether a die that shares a line, or owns it in O, is its only holder left: the others have evicted it, and no request for it is in progress
at its home. -/
def State.soleDie (s : State) (d line : Nat) : Bool :=
  let e := s.dirOf line
  e.txn.isNone && e.host == .i && (List.range 4).all (fun n => n == d || e.dies.getD n .i == .i) && e.dies.getD d .i != .i

/-- A die point grants a line to a cluster: M for an exclusive request, otherwise E where no other cache of the device holds
the line, which the home then records as held by the die alone, S where one does; a recorded cluster's UPG has its grant without data (R331). The request is complete once the grant has
arrived. -/
def State.grantL1 (s : State) (d c line : Nat) (t : Txn) : State :=
  match s.makeRoom d line with
  | none => (s.setTxn d (ownKey line) { t with phase := .gather, acks := 0 }).lookAgain
      { cycle := s.cycle, rank := 0, instr := .rds, site := { msg := t.msg } }
  | some s =>
    let ds := s.dieState line d
    let others := without c (s.holdersOf d line)
    let st : LineState := if t.excl then .m else if others.isEmpty ∧ (ds = .m ∨ ds = .e ∨ s.soleDie d line) then .e else .s
    let data := if t.upg && (s.holdersOf d line).any (fun h => h.1 == c) then none else some (s.lineNow line)
    let s := if s.offCache line then s
      else
        let s := s.setHolders d line (others ++ [(c, st)])
        if t.excl then s.updDir line (fun e => { e with dies := e.dies.set d .m })
        else if st = .e ∧ (ds = .s ∨ ds = .o) then s.updDir line (fun e => { e with dies := e.dies.set d (if ds = .o then .m else .e) })
        else s
    (s.setTxn d (ownKey line) { t with phase := .grant, acks := 0 }).post' .data
      { src := .die d, dst := .l1 c, line := line, requester := .l1 c, state := st, data := data }

/-- The part of a request inside the die: other L1s give up or share the line first (R331). -/
def State.localPhase (s : State) (d c line : Nat) (t : Txn) : State :=
  let others := without c (s.holdersOf d line)
  let asked := if t.excl then others else others.filter (fun (h : Nat × LineState) => h.2 == .m || h.2 == .e)
  if asked.isEmpty then s.grantL1 d c line t
  else
    asked.foldl (fun (s : State) (h : Nat × LineState) =>
      let i : Instr := if !t.excl then .fwds else if h.2 = .s then .inv else .fwdx
      s.post' i { src := .die d, dst := .l1 h.1, line := line, requester := .l1 c, state := h.2, data := none })
      (s.setTxn d (ownKey line) { t with phase := .gather, acks := asked.length })

/-- A request begins at its die's point (R331, R333): inside the die where the die's state allows it, otherwise by way of the home. An UPG
of a cluster that an INV has crossed is an RDX. A prefetch of the die's own asks for a line that the die does not hold. -/
def State.beginPoint (s : State) (d : Nat) (i : Instr) (m : Msg) : State :=
  let excl := i != .rds
  let ds := s.dieState m.line d
  let enough := (excl && (ds == .m || ds == .e)) || (!excl && ds != .i)
  let asks := fun (t : Txn) => (s.setTxn d (ownKey m.line) { t with phase := .home }).post' (if excl then .rdx else .rds)
    { src := .die d, dst := .home (homeOf m.line), line := m.line, requester := m.src, state := .i, data := none }
  match m.src with
  | .l1 c =>
    let t : Txn := { msg := m, excl := excl, upg := i == .upg && (s.holdersOf d m.line).any (fun h => h.1 == c), acks := 0 }
    if enough then s.localPhase d c m.line t else asks t
  | _ => if enough then s.nextAtPoint d m.line else asks { msg := m, excl := excl, acks := 0 }

/-- The point of a die goes on with a line: with the grant of its request in progress, or with the first that waits once nothing of the line
is in progress, no other of its cycle comes before it, and the L2 has room (R331, R334). -/
def State.pumpPoint (s : State) (d line : Nat) : State :=
  match (s.die d).txns.get? (ownKey line) with
  | some t =>
    (match t.msg.src with
     | .l1 c => if t.phase = .gather ∧ t.acks = 0 then s.grantL1 d c line t else s
     | _ => s)
  | none =>
    match s.waitingAt d line with
    | [] => s
    | w :: rest =>
      if ((s.die d).txns.get? (forwardKey line)).isSome || ((s.die d).evicting.get? line).isSome then s
      else if w.cycle = s.cycle && s.rival (.die d) line w.rank then s.lookAgain w
      else match s.allocate d line with
        | none => s.lookAgain w
        | some s => (s.updDie d (fun k => { k with waiting := if rest = [] then k.waiting.erase line else k.waiting.set line rest })).beginPoint
            d w.instr w.site.msg

/-- A request of a cluster, or a prefetch of the die, arrives at the die's point (R331). -/
def State.pointRequest (s : State) (i : Instr) (d : Nat) (m : Msg) : State :=
  let w : Waiting := { cycle := s.cycle, rank := rankOf (.die d) m.src m.line, instr := i, site := { msg := m } }
  (s.updDie d (fun k => { k with waiting := k.waiting.set m.line (insertWaiting w (k.waiting.getD m.line [])) })).pumpPoint d m.line

/-- A die's L2 is to hold a line (R231). -/
def State.askL2 (s : State) (d line : Nat) : State :=
  s.post' .rds { src := .die d, dst := .die d, line := line, requester := .die d, state := .i, data := none }

/-! ## The home (R333) -/

/-- The other holders of a line among the dies: number and state. -/
def DirEntry.others (e : DirEntry) (d : Nat) : List (Nat × LineState) :=
  ((List.range 4).map (fun n => (n, e.dies.getD n .i))).filter (fun x => x.1 != d && x.2 != .i)

/-- The dies that a host request asks first: holders with a copy that the host's may not stand beside (R333, R431). -/
def DirEntry.asked (e : DirEntry) (write : Bool) : List (Nat × LineState) :=
  ((List.range 4).map (fun n => (n, e.dies.getD n .i))).filter (fun x =>
    if write then x.2 != .i else x.2 == .m || x.2 == .e)

/-- The home of a line looks at the next request for it. -/
def State.nextAtHome (s : State) (line : Nat) : State :=
  match (s.dir.getD line {}).waiting with
  | w :: _ => s.lookAgain w
  | [] => s

/-- A request at a home is complete, and the next one for the line may begin (R333). -/
def State.completeHome (s : State) (line : Nat) : State :=
  { s with dir := s.dir.set line { s.dir.getD line {} with txn := none } }.nextAtHome line

/-- The home grants a line to a die: M for an exclusive request; E where nobody else holds it, S where somebody does. To the host it grants
its access. The request is complete once the grant has arrived. -/
def State.grantHome (s : State) (line : Nat) (t : Txn) : State :=
  let e := s.dirOf line
  match t.msg.src with
  | .die d =>
    let st : LineState := if t.excl then .m else if (e.others d).isEmpty ∧ e.host = .i then .e else .s
    let s := s.updDir line (fun e => { e with dies := e.dies.set d st, txn := some { t with phase := .grant, acks := 0 } })
    s.post' .data { src := .home (homeOf line), dst := .die d, line := line, requester := t.msg.requester, state := st,
                    data := some (s.lineNow line) }
  | _ => s.updDir line (fun e => { e with txn := some { t with phase := .grant, acks := 0 } })

/-- A request begins at the home (R333, R431): the dies that hold a copy it may not stand beside forward, share or drop it first. -/
def State.beginHome (s : State) (i : Instr) (x : Site) : State :=
  let host := i == .hostCoherentRequest
  let line := if host then x.host.addr / 128 else x.msg.line
  let excl := if host then x.host.write else i != .rds
  let m : Msg := if host then
      { src := .host, dst := .home (homeOf line), line := line, requester := .host, state := .i, data := none } else x.msg
  let e := s.dirOf line
  let asked : List (Nat × LineState) := match m.src with
    | .die d => if excl then e.others d else (e.others d).filter (fun (y : Nat × LineState) => y.2 != .s)
    | _ => e.asked excl
  let s := if host then s
    else if excl then s.updDir line (fun e => { e with host := .i })
    else if e.host = .m ∨ e.host = .e then s.updDir line (fun e => { e with host := .s }) else s
  let t : Txn := { msg := m, excl := excl, acks := asked.length, site := x }
  if asked.isEmpty then s.grantHome line t
  else
    asked.foldl (fun (s : State) (y : Nat × LineState) =>
      let i : Instr := if !excl then .fwds else if y.2 = .s then .inv else .fwdx
      s.post' i { src := .home (homeOf line), dst := .die y.1, line := line, requester := m.src, state := y.2, data := none })
      (s.updDir line (fun e => { e with txn := some t }))

/-- The home of a line goes on with the first request that waits, once none is in progress, no other of its cycle comes before it, and the
home's L2 has room for the line and its directory entry (R328, R333). -/
def State.pumpHome (s : State) (line : Nat) : State :=
  let e := s.dir.getD line {}
  match e.txn, e.waiting with
  | none, w :: rest =>
    if w.cycle = s.cycle && s.rival (.home (homeOf line)) line w.rank then s.lookAgain w
    else match s.allocate (homeOf line) line with
      | none => s.lookAgain w
      | some s => { s with dir := s.dir.set line { s.dir.getD line {} with waiting := rest } }.beginHome w.instr w.site
  | _, _ => s

/-- A request of a die or of the host arrives at the home of a line (R333). -/
def State.homeRequest (s : State) (i : Instr) (line rank : Nat) (x : Site) : State :=
  let w : Waiting := { cycle := s.cycle, rank := rank, instr := i, site := x }
  let e := s.dir.getD line {}
  { s with dir := s.dir.set line { e with waiting := insertWaiting w e.waiting } }.pumpHome line

/-- A die has answered the home with the state it keeps: O after a forward of what it owns, S after another, nothing where its copy is
gone (R333). -/
def State.homeAnswer (s : State) (a : Nat) (m : Msg) : State :=
  match (s.dirOf m.line).txn with
  | none => s
  | some t =>
    let old := s.dieState m.line a
    let new : LineState := if t.excl ∨ m.state = .i then .i else if old = .m ∨ old = .o ∨ m.state = .o then .o else .s
    let t := { t with acks := t.acks - 1 }
    let s := s.updDir m.line (fun e => { e with dies := e.dies.set a new, txn := some t })
    if t.acks = 0 then s.grantHome m.line t else s

/-! ## Forwards inside a die -/

/-- A die answers the home's forward once its L1s have, from its L2 or its eviction buffer (R333, R334): INV with IACK, a forward with the
data where the die still has a copy. -/
def State.dieAnswer (s : State) (d : Nat) (m : Msg) (drop : Bool) : State :=
  let s := s.updDie d (fun k => { k with txns := k.txns.erase (forwardKey m.line) })
  let k := s.die d
  let dirty := (match k.l2.get? m.line with | some l => l.dirty | none => false)
    || (match k.evicting.get? m.line with | some l => l.dirty | none => false)
  let has := (k.l2.get? m.line).isSome || (k.evicting.get? m.line).isSome
  let s := if drop then
      (s.updDie d (fun k => { k with
        l2 := if homeOf m.line = d then k.l2 else k.l2.erase m.line
        evicting := updEntry k.evicting m.line (fun l => { l with dirty := false }) })).setHolders d m.line []
    else s
  let sends := has && !(drop && m.state == .s)
  (s.post' (if sends then .data else .iack)
    { src := .die d, dst := .home (homeOf m.line), line := m.line, requester := m.requester,
      state := if drop || !has then .i else if dirty then .o else .s, data := if sends then some (s.lineNow m.line) else none }).nextAtPoint
    d m.line

/-- A forward or an INV from the home at a die: its L1s give up the line, or share it (R333). It waits while a request of the die's own
has the line in hand. -/
def State.dieForward (s : State) (i : Instr) (d : Nat) (drop : Bool) (m : Msg) : State :=
  let busy := match (s.die d).txns.get? (ownKey m.line) with | some t => t.phase != TxnPhase.home | none => false
  if busy then s.post' i m
  else
    let holders := s.holdersOf d m.line
    let asked := if drop then holders else holders.filter (fun (h : Nat × LineState) => h.2 == .m || h.2 == .e)
    if asked.isEmpty then s.dieAnswer d m drop
    else
      asked.foldl (fun (s : State) (h : Nat × LineState) =>
        let i : Instr := if !drop then .fwds else if h.2 = .s then .inv else .fwdx
        s.post' i { src := .die d, dst := .l1 h.1, line := m.line, requester := m.requester, state := h.2, data := none })
        (s.setTxn d (forwardKey m.line) { msg := m, excl := drop, acks := asked.length })

/-- An L1's answer at its die's point: a modified copy is written into the L2, and the record after it (R331). -/
def State.pointAnswer (s : State) (d c : Nat) (m : Msg) (shared : Bool) : State :=
  let s := if m.data.isSome ∧ m.state = .m then s.dirtyL2 d m.line else s
  let rest := without c (s.holdersOf d m.line)
  let s := s.setHolders d m.line (if shared then rest ++ [(c, LineState.s)] else rest)
  match (s.die d).txns.get? (forwardKey m.line), (s.die d).txns.get? (ownKey m.line) with
  | some t, _ =>
    if t.acks ≤ 1 then s.dieAnswer d t.msg t.excl else s.setTxn d (forwardKey m.line) { t with acks := t.acks - 1 }
  | none, some t =>
    match t.msg.src with
    | .l1 o =>
      if t.acks ≤ 1 then s.grantL1 d o m.line t else s.setTxn d (ownKey m.line) { t with acks := t.acks - 1 }
    | _ => s
  | none, none => s

/-- A forward at an L1: it sends the line and keeps S, or goes to I (R330). An L1 that has no copy left says so. -/
def State.l1Forward (s : State) (c : Nat) (m : Msg) (keep : Bool) : State :=
  let g := s.giveLine c m.line keep
  match g.1 with
  | some l =>
    g.2.post' .data { src := .l1 c, dst := m.src, line := m.line, requester := m.requester, state := l.state,
                      data := some l.data }
  | none =>
    g.2.post' .iack { src := .l1 c, dst := m.src, line := m.line, requester := m.requester, state := .i, data := none }

/-! ## Meanings -/

/-- A request arrives at a die's point or at the home of its line; or the point or home looks again at what waits there (`hasC`). -/
def State.lineRequest (s : State) (i : Instr) : State :=
  let x := s.cur
  match x.msg.dst with
  | .die d => if x.hasC then s.pumpPoint d x.msg.line else s.pointRequest i d x.msg
  | .home h => if x.hasC then s.pumpHome x.msg.line
      else s.homeRequest i x.msg.line (rankOf (.home h) x.msg.src x.msg.line) { msg := x.msg }
  | _ => s

/-- RDS (R331, R333): a read for a shared copy, at a die's point or at the home. -/
def execRds (s : State) : Host.Outcome State Fault Refusal := done (s.lineRequest .rds)

/-- RDX (R331, R333): a read for an exclusive copy. -/
def execRdx (s : State) : Host.Outcome State Fault Refusal := done (s.lineRequest .rdx)

/-- UPG (R331): S to M without data from a recorded cluster; RDX from one that an INV has crossed. -/
def execUpg (s : State) : Host.Outcome State Fault Refusal := done (s.lineRequest .upg)

/-- EVS (R332, R333): notice of a clean eviction; the record goes and EACK answers. -/
def execEvs (s : State) : Host.Outcome State Fault Refusal :=
  let m := s.cur.msg
  done (match m.dst, m.src with
    | .die d, .l1 c =>
      (s.setHolders d m.line (without c (s.holdersOf d m.line))).post' .eack
        { src := .die d, dst := .l1 c, line := m.line, requester := .l1 c, state := .i, data := none }
    | .home h, .die d =>
      (s.updDir m.line (fun e => { e with dies := e.dies.set d .i })).post' .eack
        { src := .home h, dst := .die d, line := m.line, requester := .die d, state := .i, data := none }
    | _, _ => s)

/-- EVD (R332 to R334): a dirty write-back is taken from the recorded holder, and discarded from any other; EACK answers. -/
def execEvd (s : State) : Host.Outcome State Fault Refusal :=
  let m := s.cur.msg
  done (match m.dst, m.src with
    | .die d, .l1 c =>
      let owner := (s.holdersOf d m.line).any (fun h => h.1 == c && (h.2 == .m || h.2 == .e))
      let s := if owner && m.data.isSome then s.dirtyL2 d m.line else s
      (s.setHolders d m.line (without c (s.holdersOf d m.line))).post' .eack
        { src := .die d, dst := .l1 c, line := m.line, requester := .l1 c, state := .i, data := none }
    | .home h, .die d =>
      let st := s.dieState m.line d
      let owner := st == .m || st == .o || st == .e
      let s := if owner && m.data.isSome then s.saveLine m.line (s.lineNow m.line) else s
      let s := if owner then s.updDir m.line (fun e => { e with dies := e.dies.set d .i }) else s
      s.post' .eack { src := .home h, dst := .die d, line := m.line, requester := .die d, state := .i, data := none }
    | _, _ => s)

/-- The grant of the home has arrived at a die: the home's request is complete, and the die's goes on (R333). -/
def State.dieGranted (s : State) (d : Nat) (m : Msg) : State :=
  let s := (if m.state = .m then s.dirtyL2 d m.line else s).completeHome m.line
  match (s.die d).txns.get? (ownKey m.line) with
  | some t =>
    (match t.msg.src with
     | .l1 c => s.localPhase d c m.line t
     | _ => s.completePoint d m.line)
  | none => s

/-- DATA (R330): a grant at an L1 or at a die's point, or the line that a forward has fetched, at a point or at the home. A grant waits
while the eviction buffer of the L1 is full (R332); a line that no cache may hold any more is not kept (R326, R338). -/
def execData (s : State) : Host.Outcome State Fault Refusal :=
  let m := s.cur.msg
  done (match m.dst, m.src with
    | .l1 c, _ =>
      if 16 ≤ (s.region c).evicting.length then s.post' .data m
      else
        let s := if s.offCache m.line then s else s.installLine c m.line m.state (s.lineNow m.line)
        (s.wakeLine c m.line).completePoint (dieOf c) m.line
    | .die d, .l1 c => s.pointAnswer d c m (m.state != .i && ((s.region c).l1.get? m.line).isSome)
    | .die d, .home _ => s.dieGranted d m
    | .home _, .die a => s.homeAnswer a m
    | _, _ => s)

/-- FWDS (R330, R333): the line goes to a requester; the holder keeps S. -/
def execFwds (s : State) : Host.Outcome State Fault Refusal :=
  done (match s.cur.msg.dst with
    | .l1 c => s.l1Forward c s.cur.msg true
    | .die d => s.dieForward .fwds d false s.cur.msg
    | _ => s)

/-- FWDX (R330, R333): the line goes to a requester; the holder goes to I. -/
def execFwdx (s : State) : Host.Outcome State Fault Refusal :=
  done (match s.cur.msg.dst with
    | .l1 c => s.l1Forward c s.cur.msg false
    | .die d => s.dieForward .fwdx d true s.cur.msg
    | _ => s)

/-- INV (R330): the copy is dropped; IACK answers, with the data when it was M. -/
def execInv (s : State) : Host.Outcome State Fault Refusal :=
  let m := s.cur.msg
  done (match m.dst with
    | .l1 c =>
      let g := s.giveLine c m.line false
      let data := match g.1 with | some l => if l.state = .m then some l.data else none | none => none
      g.2.post' .iack { src := .l1 c, dst := m.src, line := m.line, requester := m.requester,
                        state := if data.isSome then .m else .i, data := data }
    | .die d => s.dieForward .inv d true m
    | _ => s)

/-- IACK (R330): a copy has been dropped. -/
def execIack (s : State) : Host.Outcome State Fault Refusal :=
  let m := s.cur.msg
  done (match m.dst, m.src with
    | .die d, .l1 c => s.pointAnswer d c m false
    | .home _, .die a => s.homeAnswer a m
    | _, _ => s)

/-- EACK (R332, R334): the eviction is recorded, and its buffer entry is free. -/
def execEack (s : State) : Host.Outcome State Fault Refusal :=
  let m := s.cur.msg
  done (match m.dst with
    | .l1 c => s.updRegion c (fun r => { r with evicting := r.evicting.erase m.line })
    | .die d => (s.updDie d (fun k => { k with evicting := k.evicting.erase m.line })).nextAtPoint d m.line
    | _ => s)

end Sys2Proof.Machine
end

