-- ==== Sys2Proof/WellFormed.lean ====
section
/-! DEFINITION. Which instructions are well formed: those that an encoding of the spec can hold (R75 to R105, R400, R401,
R430, R454) and whose cluster, operator, queue and station numbers exist (R13, R17, R399). -/

namespace Sys2Proof

/-- The opcode and record of a station instruction (R103); none for an instruction of another kind. -/
def Instr.record? : Instr → Option (Nat × Rec)
  | .illegal r => some (0x00, r)
  | .fan r => some (0x01, r)
  | .const r => some (0x02, r)
  | .steer r => some (0x03, r)
  | .sel r => some (0x04, r)
  | .merge r => some (0x05, r)
  | .wadv r => some (0x06, r)
  | .exit r => some (0x07, r)
  | .gate r => some (0x08, r)
  | .sink r => some (0x09, r)
  | .purge r => some (0x0A, r)
  | .coord r => some (0x0B, r)
  | .tagrd r => some (0x0C, r)
  | .tagwr r => some (0x0D, r)
  | .call r => some (0x0E, r)
  | .ret r => some (0x0F, r)
  | .add r => some (0x10, r)
  | .sub r => some (0x11, r)
  | .addc r => some (0x12, r)
  | .subb r => some (0x13, r)
  | .mul r => some (0x14, r)
  | .mulhs r => some (0x15, r)
  | .mulhn r => some (0x16, r)
  | .divs r => some (0x17, r)
  | .divn r => some (0x18, r)
  | .rems r => some (0x19, r)
  | .remn r => some (0x1A, r)
  | .abs r => some (0x1B, r)
  | .mins r => some (0x1C, r)
  | .maxs r => some (0x1D, r)
  | .minn r => some (0x1E, r)
  | .maxn r => some (0x1F, r)
  | .and r => some (0x20, r)
  | .or r => some (0x21, r)
  | .xor r => some (0x22, r)
  | .andn r => some (0x23, r)
  | .not r => some (0x24, r)
  | .shl r => some (0x25, r)
  | .shr r => some (0x26, r)
  | .sar r => some (0x27, r)
  | .rol r => some (0x28, r)
  | .ror r => some (0x29, r)
  | .clz r => some (0x2A, r)
  | .ctz r => some (0x2B, r)
  | .popc r => some (0x2C, r)
  | .brev r => some (0x2D, r)
  | .bfx r => some (0x2E, r)
  | .bfi r => some (0x2F, r)
  | .ceq r => some (0x30, r)
  | .cne r => some (0x31, r)
  | .clts r => some (0x32, r)
  | .cles r => some (0x33, r)
  | .cltn r => some (0x34, r)
  | .clen r => some (0x35, r)
  | .cbit r => some (0x36, r)
  | .pand r => some (0x37, r)
  | .por r => some (0x38, r)
  | .pxor r => some (0x39, r)
  | .pnot r => some (0x3A, r)
  | .lea r => some (0x40, r)
  | .sext r => some (0x41, r)
  | .zext r => some (0x42, r)
  | .pack2 r => some (0x43, r)
  | .pack4 r => some (0x44, r)
  | .unpk r => some (0x45, r)
  | .swz r => some (0x46, r)
  | .addp r => some (0x47, r)
  | .subp r => some (0x48, r)
  | .avgp r => some (0x49, r)
  | .absdp r => some (0x4A, r)
  | .fadd r => some (0x50, r)
  | .fsub r => some (0x51, r)
  | .fmul r => some (0x52, r)
  | .ffma r => some (0x53, r)
  | .ffms r => some (0x54, r)
  | .fmin r => some (0x55, r)
  | .fmax r => some (0x56, r)
  | .fabs r => some (0x57, r)
  | .fneg r => some (0x58, r)
  | .fcmp r => some (0x59, r)
  | .fdiv r => some (0x5A, r)
  | .fsqrt r => some (0x5B, r)
  | .frcp r => some (0x5C, r)
  | .frsq r => some (0x5D, r)
  | .fclass r => some (0x5E, r)
  | .fexp2 r => some (0x5F, r)
  | .cvtif r => some (0x60, r)
  | .cvtfi r => some (0x61, r)
  | .cvtff r => some (0x62, r)
  | .fround r => some (0x63, r)
  | .ld r => some (0x70, r)
  | .st r => some (0x71, r)
  | .lda r => some (0x72, r)
  | .stl r => some (0x73, r)
  | .mnop r => some (0x74, r)
  | .fence r => some (0x75, r)
  | .pref r => some (0x76, r)
  | .ldu r => some (0x80, r)
  | .stu r => some (0x81, r)
  | .ldw r => some (0x82, r)
  | .stw r => some (0x83, r)
  | .pin r => some (0x84, r)
  | .unpin r => some (0x85, r)
  | .flush r => some (0x86, r)
  | .inval r => some (0x87, r)
  | .aadd r => some (0x90, r)
  | .amins r => some (0x91, r)
  | .amaxs r => some (0x92, r)
  | .aminn r => some (0x93, r)
  | .amaxn r => some (0x94, r)
  | .aand r => some (0x95, r)
  | .aor r => some (0x96, r)
  | .axor r => some (0x97, r)
  | .axchg r => some (0x98, r)
  | .acas r => some (0x99, r)
  | .afadd r => some (0x9A, r)
  | .qinit r => some (0xA0, r)
  | .qtake r => some (0xA1, r)
  | .qtakew r => some (0xA2, r)
  | .qgive r => some (0xA3, r)
  | .qread r => some (0xA4, r)
  | .qreadLocal r => some (0xA4, r)
  | .qpol r => some (0xA5, r)
  | .preg r => some (0xA6, r)
  | .psig r => some (0xA7, r)
  | .pwait r => some (0xA8, r)
  | .pdrop r => some (0xA9, r)
  | .pstat r => some (0xAA, r)
  | .join r => some (0xAB, r)
  | .jcfg r => some (0xAC, r)
  | .carm r => some (0xB0, r)
  | .cset r => some (0xB1, r)
  | .cfire r => some (0xB2, r)
  | .cstat r => some (0xB3, r)
  | .ccancel r => some (0xB4, r)
  | .chbind r => some (0xB5, r)
  | .chexp r => some (0xB6, r)
  | .hin r => some (0xB7, r)
  | .hout r => some (0xB8, r)
  | .xsend r => some (0xB9, r)
  | .vadd r => some (0xC0, r)
  | .vsub r => some (0xC1, r)
  | .vmul r => some (0xC2, r)
  | .vfma r => some (0xC3, r)
  | .vmin r => some (0xC4, r)
  | .vmax r => some (0xC5, r)
  | .vabs r => some (0xC6, r)
  | .vneg r => some (0xC7, r)
  | .vcmp r => some (0xC8, r)
  | .vsel r => some (0xC9, r)
  | .vexp2 r => some (0xCA, r)
  | .vlog2 r => some (0xCB, r)
  | .vrcp r => some (0xCC, r)
  | .vrsq r => some (0xCD, r)
  | .vtanh r => some (0xCE, r)
  | .vsigm r => some (0xCF, r)
  | .vred r => some (0xD0, r)
  | .vscan r => some (0xD1, r)
  | .vperm r => some (0xD2, r)
  | .vbcast r => some (0xD3, r)
  | .vshuf r => some (0xD4, r)
  | .vcvt r => some (0xD5, r)
  | .vquant r => some (0xD6, r)
  | .vdeq r => some (0xD7, r)
  | .vpack r => some (0xD8, r)
  | .vunpk r => some (0xD9, r)
  | .viota r => some (0xDA, r)
  | .vsplat r => some (0xDB, r)
  | .tcfg r => some (0xE0, r)
  | .tld r => some (0xE1, r)
  | .tldStr r => some (0xE1, r)
  | .tldTok r => some (0xE1, r)
  | .tst r => some (0xE2, r)
  | .tstTok r => some (0xE2, r)
  | .tzero r => some (0xE3, r)
  | .tmov r => some (0xE4, r)
  | .ttrn r => some (0xE5, r)
  | .zld r => some (0xE6, r)
  | .zst r => some (0xE7, r)
  | .zzero r => some (0xE8, r)
  | .zcvt r => some (0xE9, r)
  | .mop r => some (0xEA, r)
  | .mseq r => some (0xEB, r)
  | .mpair r => some (0xEC, r)
  | .cvt r => some (0xF0, r)
  | .clip r => some (0xF1, r)
  | .trap r => some (0xF2, r)
  | .brk r => some (0xF3, r)
  | .sysrd r => some (0xF4, r)
  | .syswr r => some (0xF5, r)
  | .time r => some (0xF6, r)
  | .perf r => some (0xF7, r)
  | .feat r => some (0xF8, r)
  | .drain r => some (0xF9, r)
  | _ => none

/-- The forms that one opcode's flags tell apart: QREAD, TLD and TST (R245, R293). -/
def Instr.formOk : Instr → Bool
  | .qread r => !r.flags.getLsbD 0
  | .qreadLocal r => r.flags.getLsbD 0
  | .tld r => !r.flags.getLsbD 0 && !r.flags.getLsbD 1
  | .tldStr r => !r.flags.getLsbD 0 && r.flags.getLsbD 1
  | .tldTok r => r.flags.getLsbD 0
  | .tst r => !r.flags.getLsbD 0
  | .tstTok r => r.flags.getLsbD 0
  | _ => true

/-- A control token the MO accepts (R101). -/
def Ctl.ok (t : Ctl) : Bool :=
  decide (t.scl.toNat ≤ 2) && decide (t.zidx.toNat ≤ 15) && decide (t.atile.toNat ≤ 47) &&
    decide (t.btile.toNat ≤ if t.bstr then 31 else 47)

/-- The 32 match classes of two bits hold no reserved class 0b11 (R381, R411). -/
def classesOk (w : Word) : Bool := (List.range 16).all (fun n => w.extractLsb' (2 * n) 2 != 3)

/-- A RECT field without reserved bits (R401). -/
def rectOk (h : Half) : Bool := h.extractLsb' 10 6 == 0

/-- A populated address of a write command (R75). -/
def writable (a : Nat) : Bool :=
  match placeOf a with
  | .control | .vacant => false
  | _ => true

/-- The bit of a little-endian list of bytes. -/
def bitOf (bytes : List Byte) (n : Nat) : Bool := (bytes.getD (n / 8) 0).getLsbD (n % 8)

/-- Whether a write of the register block is none of the writes that have a row of their own (R398, R399, R402, R430, R433, R440,
R446, R450). -/
def plainWrite (off : Nat) (bytes : List Byte) : Bool :=
  let q := (off - 0x10000) / 256
  let at4 := fun (o : Nat) => bytes.length == 4 && off == o
  let inQueue := decide (0x10000 ≤ off) && decide (q < 64)
  !(at4 0x10 || at4 0x20 || at4 0x60
    || (at4 0x78 && (bitOf bytes 31 || bitOf bytes 30 || (bytes.getD 0 0 == 0 && (bytes.getD 1 0).extractLsb' 0 4 == 0)))
    || (at4 0x90 && bitOf bytes 31) || (at4 0xA0 && bitOf bytes 0)
    || (inQueue && bytes.length == 4 && (off % 256 == 0 || off % 256 == 0x18))
    || (inQueue && decide (0x40 ≤ off % 256) && decide (off % 256 + bytes.length ≤ 0x80) && !bytes.isEmpty)
    || (inQueue && decide (4 ≤ q) && off % 256 == 0xBF && bytes.length == 1)
    || (decide (0x20000 ≤ off) && decide (off < 0x22000) && off % 16 == 0 && bytes.length == 16))

/-- Well-formed instructions. -/
def Instr.wf (i : Instr) : Bool :=
  match i with
  | .mma t | .mmap t => t.ok
  | .configWrite a _ _ => writable a.toNat
  | .beginStream v => v != 0
  | .recta v | .rectb v => v.extractLsb' 10 6 == 0
  | .ingressRecord c n _ _ => decide (c < 64) && decide (n < 8)
  | .apertureSeal q => decide (4 ≤ q) && decide (q < 64)
  | .launch l => rectOk l.rect && classesOk l.classes
  | .wait q _ => decide (q.toNat < 64)
  | .loadPlace rect _ _ _ => rectOk rect
  | .freeze rect _ | .drainPacket rect _ _ => rectOk rect
  | .kill q | .release q | .continuePkt q _ => decide (q.toNat < 64)
  | .retry c _ => decide (c.toNat < 64)
  | .evheadWrite q _ | .qctlWrite q _ => decide (q < 64)
  | .hintWrite q off bs => decide (q < 64) && decide (off + bs.length ≤ 64) && !bs.isEmpty
  | .registerWrite off bs => plainWrite off bs
  | .handoverGo v => v.getLsbD 31
  | .handoverEnd v => !v.getLsbD 31 && v.getLsbD 30
  | .rcvctlGo v => v.getLsbD 0
  | .bypass ir => ! [0x01, 0x02, 0x03].contains ir.toNat
  | .unknownMgmtCode code => code == 0 || decide (0x0A < code.toNat)
  | _ =>
    match i.record? with
    | some (op, r) => i.formOk && (classesOf op).any (fun c => recordOk c op r)
    | none => true

end Sys2Proof
end

