-- ==== Sys2Proof/Decode.lean ====
section
/-! DEFINITION. The decoders: records (R76, R103), MO control tokens (R100), write and stream commands (R64, R68), packets
(R400, R401), register writes (R398, R399, R430, R433, R446, R450), management commands (R454) and boundary-scan codes
(R456); and the encoder written from the same tables. Each decoder is total and rejects by name. -/

namespace Sys2Proof

/-! ## Byte order (R5) -/

/-- The natural number of little-endian bytes. -/
def leNat : List Byte → Nat
  | [] => 0
  | b :: rest => b.toNat + 256 * leNat rest

/-- The n little-endian bytes of a number. -/
def leBytes : Nat → Nat → List Byte
  | 0, _ => []
  | n + 1, v => BitVec.ofNat 8 v :: leBytes n (v / 256)

/-! ## What can be decoded -/

/-- Why a code is no instruction. -/
inductive Reject where
  /-- F0 = 0x0000: an empty station (R76). -/
  | empty
  /-- An unassigned opcode (R104). -/
  | opcode
  /-- An opcode on a class that the map does not mark (R104). -/
  | klass
  /-- A reserved value in the field named (R80, R96). -/
  | field (n : Nat)
  /-- No consume port (R87). -/
  | consume
  /-- A reserved MOPC (R100). -/
  | mopc
  /-- A packet that completes with FORMAT (R400). -/
  | format
  /-- A command packet on q4 to q63 (R400). -/
  | priv
  /-- A number of bits that no table row has. -/
  | size
  deriving DecidableEq, Repr

/-- An encoded instruction: what it is and its bits. -/
inductive Code where
  | record (w : RawRecord)
  | control (w : Word)
  | command (w : Word)
  | packet (q : Nat) (p : BitVec 512)
  | write (off : Nat) (data : List Byte)
  | manage (code : Byte) (payload : List Byte)
  | scan (ir : Byte)
  deriving DecidableEq, Repr

/-! ## Records -/

/-- The instruction of an opcode and the other fields of its record (R103, R245, R293); none for an unassigned opcode. -/
def stationInstr (op : Nat) (r : Rec) : Option Instr :=
  match op with
  | 0x00 => some (.illegal r)
  | 0x01 => some (.fan r)
  | 0x02 => some (.const r)
  | 0x03 => some (.steer r)
  | 0x04 => some (.sel r)
  | 0x05 => some (.merge r)
  | 0x06 => some (.wadv r)
  | 0x07 => some (.exit r)
  | 0x08 => some (.gate r)
  | 0x09 => some (.sink r)
  | 0x0A => some (.purge r)
  | 0x0B => some (.coord r)
  | 0x0C => some (.tagrd r)
  | 0x0D => some (.tagwr r)
  | 0x0E => some (.call r)
  | 0x0F => some (.ret r)
  | 0x10 => some (.add r)
  | 0x11 => some (.sub r)
  | 0x12 => some (.addc r)
  | 0x13 => some (.subb r)
  | 0x14 => some (.mul r)
  | 0x15 => some (.mulhs r)
  | 0x16 => some (.mulhn r)
  | 0x17 => some (.divs r)
  | 0x18 => some (.divn r)
  | 0x19 => some (.rems r)
  | 0x1A => some (.remn r)
  | 0x1B => some (.abs r)
  | 0x1C => some (.mins r)
  | 0x1D => some (.maxs r)
  | 0x1E => some (.minn r)
  | 0x1F => some (.maxn r)
  | 0x20 => some (.and r)
  | 0x21 => some (.or r)
  | 0x22 => some (.xor r)
  | 0x23 => some (.andn r)
  | 0x24 => some (.not r)
  | 0x25 => some (.shl r)
  | 0x26 => some (.shr r)
  | 0x27 => some (.sar r)
  | 0x28 => some (.rol r)
  | 0x29 => some (.ror r)
  | 0x2A => some (.clz r)
  | 0x2B => some (.ctz r)
  | 0x2C => some (.popc r)
  | 0x2D => some (.brev r)
  | 0x2E => some (.bfx r)
  | 0x2F => some (.bfi r)
  | 0x30 => some (.ceq r)
  | 0x31 => some (.cne r)
  | 0x32 => some (.clts r)
  | 0x33 => some (.cles r)
  | 0x34 => some (.cltn r)
  | 0x35 => some (.clen r)
  | 0x36 => some (.cbit r)
  | 0x37 => some (.pand r)
  | 0x38 => some (.por r)
  | 0x39 => some (.pxor r)
  | 0x3A => some (.pnot r)
  | 0x40 => some (.lea r)
  | 0x41 => some (.sext r)
  | 0x42 => some (.zext r)
  | 0x43 => some (.pack2 r)
  | 0x44 => some (.pack4 r)
  | 0x45 => some (.unpk r)
  | 0x46 => some (.swz r)
  | 0x47 => some (.addp r)
  | 0x48 => some (.subp r)
  | 0x49 => some (.avgp r)
  | 0x4A => some (.absdp r)
  | 0x50 => some (.fadd r)
  | 0x51 => some (.fsub r)
  | 0x52 => some (.fmul r)
  | 0x53 => some (.ffma r)
  | 0x54 => some (.ffms r)
  | 0x55 => some (.fmin r)
  | 0x56 => some (.fmax r)
  | 0x57 => some (.fabs r)
  | 0x58 => some (.fneg r)
  | 0x59 => some (.fcmp r)
  | 0x5A => some (.fdiv r)
  | 0x5B => some (.fsqrt r)
  | 0x5C => some (.frcp r)
  | 0x5D => some (.frsq r)
  | 0x5E => some (.fclass r)
  | 0x5F => some (.fexp2 r)
  | 0x60 => some (.cvtif r)
  | 0x61 => some (.cvtfi r)
  | 0x62 => some (.cvtff r)
  | 0x63 => some (.fround r)
  | 0x70 => some (.ld r)
  | 0x71 => some (.st r)
  | 0x72 => some (.lda r)
  | 0x73 => some (.stl r)
  | 0x74 => some (.mnop r)
  | 0x75 => some (.fence r)
  | 0x76 => some (.pref r)
  | 0x80 => some (.ldu r)
  | 0x81 => some (.stu r)
  | 0x82 => some (.ldw r)
  | 0x83 => some (.stw r)
  | 0x84 => some (.pin r)
  | 0x85 => some (.unpin r)
  | 0x86 => some (.flush r)
  | 0x87 => some (.inval r)
  | 0x90 => some (.aadd r)
  | 0x91 => some (.amins r)
  | 0x92 => some (.amaxs r)
  | 0x93 => some (.aminn r)
  | 0x94 => some (.amaxn r)
  | 0x95 => some (.aand r)
  | 0x96 => some (.aor r)
  | 0x97 => some (.axor r)
  | 0x98 => some (.axchg r)
  | 0x99 => some (.acas r)
  | 0x9A => some (.afadd r)
  | 0xA0 => some (.qinit r)
  | 0xA1 => some (.qtake r)
  | 0xA2 => some (.qtakew r)
  | 0xA3 => some (.qgive r)
  | 0xA4 => some (if r.flags.getLsbD 0 then .qreadLocal r else .qread r)
  | 0xA5 => some (.qpol r)
  | 0xA6 => some (.preg r)
  | 0xA7 => some (.psig r)
  | 0xA8 => some (.pwait r)
  | 0xA9 => some (.pdrop r)
  | 0xAA => some (.pstat r)
  | 0xAB => some (.join r)
  | 0xAC => some (.jcfg r)
  | 0xB0 => some (.carm r)
  | 0xB1 => some (.cset r)
  | 0xB2 => some (.cfire r)
  | 0xB3 => some (.cstat r)
  | 0xB4 => some (.ccancel r)
  | 0xB5 => some (.chbind r)
  | 0xB6 => some (.chexp r)
  | 0xB7 => some (.hin r)
  | 0xB8 => some (.hout r)
  | 0xB9 => some (.xsend r)
  | 0xC0 => some (.vadd r)
  | 0xC1 => some (.vsub r)
  | 0xC2 => some (.vmul r)
  | 0xC3 => some (.vfma r)
  | 0xC4 => some (.vmin r)
  | 0xC5 => some (.vmax r)
  | 0xC6 => some (.vabs r)
  | 0xC7 => some (.vneg r)
  | 0xC8 => some (.vcmp r)
  | 0xC9 => some (.vsel r)
  | 0xCA => some (.vexp2 r)
  | 0xCB => some (.vlog2 r)
  | 0xCC => some (.vrcp r)
  | 0xCD => some (.vrsq r)
  | 0xCE => some (.vtanh r)
  | 0xCF => some (.vsigm r)
  | 0xD0 => some (.vred r)
  | 0xD1 => some (.vscan r)
  | 0xD2 => some (.vperm r)
  | 0xD3 => some (.vbcast r)
  | 0xD4 => some (.vshuf r)
  | 0xD5 => some (.vcvt r)
  | 0xD6 => some (.vquant r)
  | 0xD7 => some (.vdeq r)
  | 0xD8 => some (.vpack r)
  | 0xD9 => some (.vunpk r)
  | 0xDA => some (.viota r)
  | 0xDB => some (.vsplat r)
  | 0xE0 => some (.tcfg r)
  | 0xE1 => some (if r.flags.getLsbD 0 then .tldTok r else if r.flags.getLsbD 1 then .tldStr r else .tld r)
  | 0xE2 => some (if r.flags.getLsbD 0 then .tstTok r else .tst r)
  | 0xE3 => some (.tzero r)
  | 0xE4 => some (.tmov r)
  | 0xE5 => some (.ttrn r)
  | 0xE6 => some (.zld r)
  | 0xE7 => some (.zst r)
  | 0xE8 => some (.zzero r)
  | 0xE9 => some (.zcvt r)
  | 0xEA => some (.mop r)
  | 0xEB => some (.mseq r)
  | 0xEC => some (.mpair r)
  | 0xF0 => some (.cvt r)
  | 0xF1 => some (.clip r)
  | 0xF2 => some (.trap r)
  | 0xF3 => some (.brk r)
  | 0xF4 => some (.sysrd r)
  | 0xF5 => some (.syswr r)
  | 0xF6 => some (.time r)
  | 0xF7 => some (.perf r)
  | 0xF8 => some (.feat r)
  | 0xF9 => some (.drain r)
  | _ => none

/-- The instruction a record holds in a station of the given class (R76 to R104). -/
def decodeRecord (cls : Class) (w : RawRecord) : Except Reject Instr :=
  if w.f0 = 0 then .error .empty
  else
    match stationInstr w.opcode (Rec.ofRaw w) with
    | none => .error .opcode
    | some i =>
      if !(classesOf w.opcode).contains cls then .error .klass
      else
        match fieldFault cls w.opcode (Rec.ofRaw w) with
        | some n => .error (.field n)
        | none => if hasConsume w.opcode (Rec.ofRaw w) then .ok i else .error .consume

/-- The instruction a record holds in a station of some class that may hold its opcode. -/
def decodeAnyRecord (w : RawRecord) : Except Reject Instr :=
  match (classesOf w.opcode).find? (fun c => recordOk c w.opcode (Rec.ofRaw w)) with
  | some c => decodeRecord c w
  | none =>
    match classesOf w.opcode with
    | c :: _ => decodeRecord c w
    | [] => if w.f0 = 0 then .error .empty else .error .opcode

/-! ## MO control tokens -/

/-- The fields of a control token (R100). -/
def Ctl.ofWord (w : Word) : Ctl :=
  { zidx := w.extractLsb' 20 6, atile := w.extractLsb' 14 6, btile := w.extractLsb' 8 6, acc := w.getLsbD 7,
    tra := w.getLsbD 6, trb := w.getLsbD 5, sat := w.getLsbD 4, bstr := w.getLsbD 3, scl := w.extractLsb' 0 3 }

/-- The word of a control token (R100). -/
def Ctl.toWord (mopc : BitVec 6) (t : Ctl) : Word :=
  mopc ++ t.zidx ++ t.atile ++ t.btile ++ BitVec.ofBool t.acc ++ BitVec.ofBool t.tra ++ BitVec.ofBool t.trb
    ++ BitVec.ofBool t.sat ++ BitVec.ofBool t.bstr ++ t.scl

/-- The instruction of a control token; a reserved MOPC is none (R100). The other faults of R101 are checked by the meaning. -/
def decodeControl (w : Word) : Except Reject Instr :=
  if w.extractLsb' 26 6 = 1 then .ok (.mma (Ctl.ofWord w))
  else if w.extractLsb' 26 6 = 2 then .ok (.mmap (Ctl.ofWord w))
  else .error .mopc

/-! ## Write and stream commands -/

/-- The instruction of a command word (R64, R68). -/
def decodeCommand (w : Word) : Instr :=
  let val := w.extractLsb' 0 16
  if w.extractLsb' 19 13 = 0x1FFF#13 then
    match (w.extractLsb' 16 3).toNat with
    | 0 => .beginStream val
    | 1 => .patbegin val
    | 2 => .recta val
    | 3 => .rectb val
    | 4 => .patend val
    | 5 => .endStream val
    | 6 => .chklo val
    | _ => .chkhi val
  else .configWrite (w.extractLsb' 19 13) (w.extractLsb' 16 3) val

/-- The word of a stream-control command (R68). -/
def controlCommand (fld : BitVec 3) (val : Half) : Word := 0x1FFF#13 ++ fld ++ val

/-! ## Packets -/

/-- The field of a packet at a byte offset (R400). -/
def packetField (p : BitVec 512) (off len : Nat) : BitVec (8 * len) := p.extractLsb' (8 * off) (8 * len)

/-- Whether the bytes from one offset up to another are zero. -/
def packetZero (p : BitVec 512) (off stop : Nat) : Bool := (p.toNat / 2 ^ (8 * off)) % 2 ^ (8 * (stop - off)) == 0

/-- The LAUNCH packet of its bytes (R401). -/
def LaunchPkt.ofPacket (p : BitVec 512) : LaunchPkt :=
  { spec := p.getLsbD 8, ext := p.getLsbD 9, notify := p.getLsbD 10, prio := p.extractLsb' 16 3,
    handle := p.extractLsb' 32 32, rect := p.extractLsb' 64 16, classes := p.extractLsb' 96 32,
    bind0 := p.extractLsb' 128 64, extptr := p.extractLsb' 192 64,
    arg0 := p.extractLsb' 256 32, arg1 := p.extractLsb' 288 32, arg2 := p.extractLsb' 320 32,
    arg3 := p.extractLsb' 352 32, arg4 := p.extractLsb' 384 32, arg5 := p.extractLsb' 416 32,
    arg6 := p.extractLsb' 448 32 }

/-- The bytes of a LAUNCH packet, SEAL zero (R401). -/
def LaunchPkt.toPacket (l : LaunchPkt) : BitVec 512 :=
  (0 : BitVec 32) ++ l.arg6 ++ l.arg5 ++ l.arg4 ++ l.arg3 ++ l.arg2 ++ l.arg1 ++ l.arg0 ++ l.extptr ++ l.bind0
    ++ l.classes ++ (0 : BitVec 16) ++ l.rect ++ l.handle ++ (0 : BitVec 8) ++ (0 : BitVec 5) ++ l.prio
    ++ (0 : BitVec 5) ++ BitVec.ofBool l.notify ++ BitVec.ofBool l.ext ++ BitVec.ofBool l.spec ++ (1 : BitVec 8)

/-- The instruction of a packet of queue q, or FORMAT or PRIV (R400, R401, R411). A byte that no field names counts as
reserved; the SEAL is ignored. -/
def decodePacket (q : Nat) (p : BitVec 512) : Except Reject Instr :=
  let type := (p.extractLsb' 0 8).toNat
  let plain := fun (ok : Bool) (i : Instr) => if ok then Except.ok i else Except.error Reject.format
  if type = 0x01 then
    let l := LaunchPkt.ofPacket p
    plain (p.extractLsb' 11 5 == 0 && p.extractLsb' 19 5 == 0 && packetZero p 0x03 0x04 && rectOk l.rect
      && packetZero p 0x0A 0x0C && packetZero p 0x3C 0x3F && classesOk l.classes) (.launch l)
  else if type = 0x02 then
    plain (packetZero p 0x01 0x04 && packetZero p 0x05 0x08 && packetZero p 0x10 0x3F
      && decide ((p.extractLsb' 32 8).toNat < 64)) (.wait (p.extractLsb' 32 8) (p.extractLsb' 64 64))
  else if type = 0x03 then
    plain (packetZero p 0x01 0x08 && packetZero p 0x18 0x3F) (.waitf (p.extractLsb' 64 64) (p.extractLsb' 128 64))
  else if type = 0x04 then
    plain (packetZero p 0x01 0x08 && packetZero p 0x18 0x3F) (.signal (p.extractLsb' 64 64) (p.extractLsb' 128 64))
  else if type = 0x05 then
    let rest := p.extractLsb' 9 7 == 0 && packetZero p 0x02 0x04 && packetZero p 0x06 0x08 && packetZero p 0x20 0x3F
    if p.getLsbD 8 then
      plain (rest && rectOk (p.extractLsb' 32 16))
        (.loadPlace (p.extractLsb' 32 16) (p.extractLsb' 64 64) (p.extractLsb' 128 64) (p.extractLsb' 192 64))
    else plain rest (.load (p.extractLsb' 64 64) (p.extractLsb' 128 64) (p.extractLsb' 192 64))
  else if type = 0x06 then
    plain (packetZero p 0x01 0x04 && packetZero p 0x08 0x3F) (.unload (p.extractLsb' 32 32))
  else if 0x10 ≤ type ∧ type ≤ 0x17 then
    if 4 ≤ q then .error .priv
    else if type = 0x10 then
      plain (packetZero p 0x01 0x04 && packetZero p 0x06 0x08 && packetZero p 0x10 0x3F && rectOk (p.extractLsb' 32 16))
        (.freeze (p.extractLsb' 32 16) (p.extractLsb' 64 64))
    else if type = 0x11 then
      plain (packetZero p 0x01 0x08 && packetZero p 0x10 0x3F) (.resume (p.extractLsb' 64 64))
    else if type = 0x12 then
      plain (packetZero p 0x01 0x04 && packetZero p 0x06 0x08 && packetZero p 0x14 0x3F && rectOk (p.extractLsb' 32 16))
        (.drainPacket (p.extractLsb' 32 16) (p.extractLsb' 64 64) (p.extractLsb' 128 32))
    else if type = 0x13 then
      plain (packetZero p 0x01 0x04 && packetZero p 0x05 0x3F && decide ((p.extractLsb' 32 8).toNat < 64))
        (.kill (p.extractLsb' 32 8))
    else if type = 0x14 then
      plain (packetZero p 0x01 0x04 && packetZero p 0x05 0x06 && packetZero p 0x08 0x3F
        && decide ((p.extractLsb' 32 8).toNat < 64)) (.retry (p.extractLsb' 32 8) (p.extractLsb' 48 16))
    else if type = 0x15 then
      plain (packetZero p 0x01 0x04 && packetZero p 0x05 0x3F && decide ((p.extractLsb' 32 8).toNat < 64))
        (.release (p.extractLsb' 32 8))
    else if type = 0x16 then
      plain (packetZero p 0x01 0x08 && packetZero p 0x20 0x3F)
        (.tlbinv (p.extractLsb' 64 64) (p.extractLsb' 128 64) (p.extractLsb' 192 64))
    else
      plain (packetZero p 0x01 0x04 && packetZero p 0x05 0x08 && packetZero p 0x0C 0x3F
        && decide ((p.extractLsb' 32 8).toNat < 64)) (.continuePkt (p.extractLsb' 32 8) (p.extractLsb' 64 32))
  else .error .format

/-- The bytes of a packet instruction, SEAL zero (R400); none for another instruction. -/
def encodePacket : Instr → Option (BitVec 512)
  | .launch l => some l.toPacket
  | .wait q seq => some ((0 : BitVec 384) ++ seq ++ (0 : BitVec 24) ++ q ++ (0 : BitVec 24) ++ (0x02 : BitVec 8))
  | .waitf a v => some ((0 : BitVec 320) ++ v ++ a ++ (0 : BitVec 56) ++ (0x03 : BitVec 8))
  | .signal a v => some ((0 : BitVec 320) ++ v ++ a ++ (0 : BitVec 56) ++ (0x04 : BitVec 8))
  | .load o n res => some ((0 : BitVec 256) ++ res ++ n ++ o ++ (0 : BitVec 56) ++ (0x05 : BitVec 8))
  | .loadPlace rect o n res =>
    some ((0 : BitVec 256) ++ res ++ n ++ o ++ (0 : BitVec 16) ++ rect ++ (0 : BitVec 16) ++ (1 : BitVec 8)
      ++ (0x05 : BitVec 8))
  | .unload h => some ((0 : BitVec 448) ++ h ++ (0 : BitVec 24) ++ (0x06 : BitVec 8))
  | .freeze rect l =>
    some ((0 : BitVec 384) ++ l ++ (0 : BitVec 16) ++ rect ++ (0 : BitVec 24) ++ (0x10 : BitVec 8))
  | .resume l => some ((0 : BitVec 384) ++ l ++ (0 : BitVec 56) ++ (0x11 : BitVec 8))
  | .drainPacket rect l d =>
    some ((0 : BitVec 352) ++ d ++ l ++ (0 : BitVec 16) ++ rect ++ (0 : BitVec 24) ++ (0x12 : BitVec 8))
  | .kill q => some ((0 : BitVec 472) ++ q ++ (0 : BitVec 24) ++ (0x13 : BitVec 8))
  | .retry c sta =>
    some ((0 : BitVec 448) ++ sta ++ (0 : BitVec 8) ++ c ++ (0 : BitVec 24) ++ (0x14 : BitVec 8))
  | .release q => some ((0 : BitVec 472) ++ q ++ (0 : BitVec 24) ++ (0x15 : BitVec 8))
  | .tlbinv va n root => some ((0 : BitVec 256) ++ root ++ n ++ va ++ (0 : BitVec 56) ++ (0x16 : BitVec 8))
  | .continuePkt q h =>
    some ((0 : BitVec 416) ++ h ++ (0 : BitVec 24) ++ q ++ (0 : BitVec 24) ++ (0x17 : BitVec 8))
  | _ => none

/-! ## Register writes, management commands and boundary scan -/

/-- The instruction of a host write to the device register block (R398, R399, R430, R433, R446, R450): the rows with a
behaviour of their own by offset and size, and REGISTER_WRITE for every other write. -/
def decodeWrite (off : Nat) (bytes : List Byte) : Instr :=
  let v : Word := BitVec.ofNat 32 (leNat bytes)
  let q := (off - 0x10000) / 256
  let qoff := (off - 0x10000) % 256
  if bytes.length = 4 ∧ off = 0x10 then .fpprodWrite v
  else if bytes.length = 4 ∧ off = 0x20 then .svprodWrite v
  else if bytes.length = 4 ∧ off = 0x60 then .egconsWrite v
  else if bytes.length = 4 ∧ off = 0x78 ∧ v.getLsbD 31 then .handoverGo v
  else if bytes.length = 4 ∧ off = 0x78 ∧ v.getLsbD 30 then .handoverEnd v
  else if bytes.length = 4 ∧ off = 0x78 ∧ v.extractLsb' 0 12 = 0 then .handoverClear
  else if bytes.length = 4 ∧ off = 0x90 ∧ v.getLsbD 31 then .deviceReset
  else if bytes.length = 4 ∧ off = 0xA0 ∧ v.getLsbD 0 then .rcvctlGo v
  else if 0x10000 ≤ off ∧ q < 64 ∧ bytes.length = 4 ∧ qoff = 0 then .qctlWrite q v
  else if 0x10000 ≤ off ∧ q < 64 ∧ bytes.length = 4 ∧ qoff = 0x18 then .evheadWrite q v
  else if 0x10000 ≤ off ∧ q < 64 ∧ 0x40 ≤ qoff ∧ qoff + bytes.length ≤ 0x80 ∧ bytes ≠ [] then
    .hintWrite q (qoff - 0x40) bytes
  else if 0x10000 ≤ off ∧ 4 ≤ q ∧ q < 64 ∧ qoff = 0xBF ∧ bytes.length = 1 then .apertureSeal q
  else if 0x20000 ≤ off ∧ off < 0x22000 ∧ off % 16 = 0 ∧ bytes.length = 16 then
    let n := (off - 0x20000) / 16
    .ingressRecord (n / 8) (n % 8) (BitVec.ofNat 32 (leNat (bytes.take 4)))
      (BitVec.ofNat 32 (leNat ((bytes.drop 4).take 4)))
  else .registerWrite off bytes

/-- The write of an instruction that one register write makes; none for another instruction. -/
def encodeWrite : Instr → Option (Nat × List Byte)
  | .fpprodWrite v => some (0x10, leBytes 4 v.toNat)
  | .svprodWrite v => some (0x20, leBytes 4 v.toNat)
  | .egconsWrite v => some (0x60, leBytes 4 v.toNat)
  | .handoverGo v => some (0x78, leBytes 4 v.toNat)
  | .handoverEnd v => some (0x78, leBytes 4 v.toNat)
  | .handoverClear => some (0x78, leBytes 4 0)
  | .deviceReset => some (0x90, leBytes 4 0x80000000)
  | .rcvctlGo v => some (0xA0, leBytes 4 v.toNat)
  | .qctlWrite q v => some (0x10000 + 256 * q, leBytes 4 v.toNat)
  | .evheadWrite q v => some (0x10000 + 256 * q + 0x18, leBytes 4 v.toNat)
  | .hintWrite q off bs => some (0x10000 + 256 * q + 0x40 + off, bs)
  | .apertureSeal q => some (0x10000 + 256 * q + 0xBF, [0])
  | .ingressRecord c n v w =>
    some (0x20000 + 16 * (8 * c + n), leBytes 4 v.toNat ++ leBytes 4 w.toNat ++ leBytes 8 0)
  | .registerWrite off bs => some (off, bs)
  | _ => none

/-- The instruction of a management command (R454). -/
def decodeManage (code : Byte) (payload : List Byte) : Instr :=
  match code.toNat with
  | 0x01 => .readpwr payload
  | 0x02 => .readlog payload
  | 0x03 => .stage payload
  | 0x04 => .commit payload
  | 0x05 => .setkey payload
  | 0x06 => .quote payload
  | 0x07 => .readquote payload
  | 0x08 => .status payload
  | 0x09 => .mgmtReset payload
  | 0x0A => .readkeys payload
  | _ => .unknownMgmtCode code

/-- The command of a management instruction; none for another instruction. -/
def encodeManage : Instr → Option (Byte × List Byte)
  | .readpwr p => some (0x01, p)
  | .readlog p => some (0x02, p)
  | .stage p => some (0x03, p)
  | .commit p => some (0x04, p)
  | .setkey p => some (0x05, p)
  | .quote p => some (0x06, p)
  | .readquote p => some (0x07, p)
  | .status p => some (0x08, p)
  | .mgmtReset p => some (0x09, p)
  | .readkeys p => some (0x0A, p)
  | .unknownMgmtCode c => some (c, [])
  | _ => none

/-- The instruction of a boundary-scan code (R456). -/
def decodeScan (ir : Byte) : Instr :=
  match ir.toNat with
  | 0x01 => .idcode
  | 0x02 => .samplePreload
  | 0x03 => .extest
  | _ => .bypass ir

/-- The code of a boundary-scan instruction; none for another instruction. -/
def encodeScan : Instr → Option Byte
  | .bypass ir => some ir
  | .idcode => some 0x01
  | .samplePreload => some 0x02
  | .extest => some 0x03
  | _ => none

/-! ## All codes -/

/-- The instruction of a code. -/
def decode : Code → Except Reject Instr
  | .record w => decodeAnyRecord w
  | .control w => decodeControl w
  | .command w => .ok (decodeCommand w)
  | .packet q p => decodePacket q p
  | .write off bs => .ok (decodeWrite off bs)
  | .manage c p => .ok (decodeManage c p)
  | .scan ir => .ok (decodeScan ir)

/-- The word of a write or stream command; none for another instruction. -/
def encodeCommand : Instr → Option Word
  | .configWrite a f v => some (a ++ f ++ v)
  | .beginStream v => some (controlCommand 0 v)
  | .patbegin v => some (controlCommand 1 v)
  | .recta v => some (controlCommand 2 v)
  | .rectb v => some (controlCommand 3 v)
  | .patend v => some (controlCommand 4 v)
  | .endStream v => some (controlCommand 5 v)
  | .chklo v => some (controlCommand 6 v)
  | .chkhi v => some (controlCommand 7 v)
  | _ => none

/-- The word of a control token; none for another instruction. -/
def encodeControl : Instr → Option Word
  | .mma t => some (t.toWord 1)
  | .mmap t => some (t.toWord 2)
  | _ => none

/-- The code of an instruction, packets as those of q0; none for an event to which the manual gives no encoding. -/
def encode (i : Instr) : Option Code :=
  match i.record? with
  | some (op, r) => some (.record (r.toRaw (BitVec.ofNat 8 op)))
  | none =>
    match encodeControl i, encodeCommand i, encodePacket i, encodeWrite i, encodeManage i, encodeScan i with
    | some w, _, _, _, _, _ => some (.control w)
    | none, some w, _, _, _, _ => some (.command w)
    | none, none, some p, _, _, _ => some (.packet 0 p)
    | none, none, none, some (off, bs), _, _ => some (.write off bs)
    | none, none, none, none, some (c, p), _ => some (.manage c p)
    | none, none, none, none, none, some ir => some (.scan ir)
    | none, none, none, none, none, none => none

/-- The record whose 128 bits are w, F0 lowest (R76). -/
def RawRecord.ofBits (w : BitVec 128) : RawRecord :=
  { f0 := w.extractLsb' 0 16, f1 := w.extractLsb' 16 16, f2 := w.extractLsb' 32 16, f3 := w.extractLsb' 48 16,
    f4 := w.extractLsb' 64 16, f5 := w.extractLsb' 80 16, f6 := w.extractLsb' 96 16, f7 := w.extractLsb' 112 16 }

/-- The code that a number of bits names: 8 a boundary-scan code, 32 a control token, 128 a record, 512 a packet of q0. -/
def codeOfBits (nbits w : Nat) : Option Code :=
  if nbits = 8 then some (.scan (BitVec.ofNat 8 w))
  else if nbits = 32 then some (.control (BitVec.ofNat 32 w))
  else if nbits = 128 then some (.record (RawRecord.ofBits (BitVec.ofNat 128 w)))
  else if nbits = 512 then some (.packet 0 (BitVec.ofNat 512 w))
  else none

/-- The instruction whose bits are w, numbered as the table of operations numbers them. -/
def decodeTableWord (nbits w : Nat) : Option Instr :=
  match codeOfBits nbits w with
  | some c => match decode c with | .ok i => some i | .error _ => none
  | none => none

end Sys2Proof
end

