-- ==== Sys2Proof/Machine/Fetch.lean ====
section
/-! DEFINITION. From what is due to an instruction in hand: the choice among due activities, the arbiter of an element (R37),
the record, control token, command word, packet, register write, management command or boundary-scan code that the
activity names, and the passing of time. -/

namespace Sys2Proof.Machine

open Sys2Proof

/-- What a step finds: an instruction with the state it acts on, nothing that can go on, or a word that does not decode. -/
inductive Fetched where
  | run (i : Instr) (s : State)
  | pass (s : State)
  | stuck (c st : Nat)
  deriving DecidableEq, Repr

/-- A list without the entry at a place. -/
def dropAt {α : Type} : List α → Nat → List α
  | [], _ => []
  | _ :: rest, 0 => rest
  | a :: rest, n + 1 => a :: dropAt rest n

/-- Whether an activity is a write of the register block. -/
def Activity.isWrite : Activity → Bool
  | .write _ _ => true
  | _ => false

/-- Whether an activity is a request of the host through the Towpath port of a line, and whether it is a write of the host to memory. -/
def Activity.isHostAt (port : Nat) (a : Activity) : Bool :=
  match a with
  | .event .hostCoherentRequest x => x.host.addr / 128 % 2 == port
  | _ => false

def Activity.isHostWrite (a : Activity) : Bool :=
  match a with
  | .event .hostCoherentRequest x => x.host.write
  | _ => false

/-- Whether an activity is a record that comes to an ingress node over Span, and whether it is an access of another device to a line. -/
def Activity.isRecordAt (c n : Nat) (a : Activity) : Bool :=
  match a with
  | .event .xsendRecordArrival x => x.ingress.cluster == c && x.ingress.node == n
  | _ => false

def Activity.isSpanAt (line : Nat) (a : Activity) : Bool :=
  match a with
  | .event .spanAccessRequest x => x.access.addr / 128 == line
  | _ => false

/-- The place of the activity to take, where place k was picked: the register writes of the host are performed in the order in
which they were sent, and after the writes to memory sent before them (R358, R403, R433); requests through one port in the order sent
(R432), and accesses of other devices to one line (R435); records enter the queue of their node in the order of their arrival (R433). -/
def State.inOrder (s : State) (k : Nat) : Nat :=
  let host := fun (x : Site) => s.agenda.findIdx (Activity.isHostAt (x.host.addr / 128 % 2))
  match s.agenda[k]? with
  | some (.write _ _) =>
    let j := s.agenda.findIdx Activity.isWrite
    let m := s.agenda.findIdx Activity.isHostWrite
    (match (if m < j then s.agenda[m]? else none) with
     | some (.event .hostCoherentRequest x) => host x
     | _ => j)
  | some (.event .hostCoherentRequest x) => host x
  | some (.event .spanAccessRequest x) => s.agenda.findIdx (Activity.isSpanAt (x.access.addr / 128))
  | some (.event .xsendRecordArrival x) => s.agenda.findIdx (Activity.isRecordAt x.ingress.cluster x.ingress.node)
  | _ => k

/-- A request from outside carries the place where it stood, where it goes back to while it waits. -/
def Activity.at_ (a : Activity) (k : Nat) : Activity :=
  match a with
  | .event .hostCoherentRequest x => .event .hostCoherentRequest { x with index := k }
  | .event .spanAccessRequest x => .event .spanAccessRequest { x with index := k }
  | .event .xsendRecordArrival x => .event .xsendRecordArrival { x with index := k }
  | a => a

/-- An activity goes back to the place in what is due where it stood. -/
def State.backTo (s : State) (k : Nat) (a : Activity) : State := { s with agenda := s.agenda.take k ++ a :: s.agenda.drop k }

/-- The activity that goes next, and the state without it; none where nothing is due. The order is the state's list of picks
while it lists any, and free after that (R35, R217). -/
def State.choose (s : State) : Option (Activity × State) :=
  let n := s.agenda.length
  if n = 0 then none
  else
    let k := s.inOrder ((s.picks.head?.getD (Config.pick s.ticks)) % n)
    match s.agenda[k]? with
    | some a => some (a.at_ k, { s with agenda := dropAt s.agenda k, picks := s.picks.tail })
    | none => none

/-! ## Firings (R31, R37) -/

/-- Whether the memory port of a station keeps the firing in hand waiting: a held request stands at its head (R218); the station's
refusal slot is occupied and the buffer would not let the operation issue at once (R225); an ordered channel has 64 requests
awaiting order (R233); the port has 64 atomic, quarry and phaser requests without a reply (R241). -/
def State.portWithheld (s : State) (x : Site) (op : Nat) (r : Rec) : Bool :=
  let mine := s.reqs.filter (fun q => q.cluster == x.cluster && portOf q.station == portOf x.station
    && decide (0x1100 ≤ q.station) && decide (q.station < 0x1200))
  let homeKind := fun (q : MemReq) => match q.kind with | .atomic _ | .quarry _ | .phaser _ => true | _ => false
  mine.any (fun q => match q.stage with | .held _ => true | _ => false)
    || ((s.region x.cluster).buffer.any (fun b => b.refused && ((s.req? b.id).map (fun q => q.station)) == some x.station)
        && !{ s with cur := x }.canIssue ({ s with cur := x }.stationReq op r .load 4))
    || (0x80 ≤ op && op ≤ 0x83 && r.flags.getLsbD 0
        && decide (64 ≤ (mine.filter (fun q => q.station == x.station)).length))
    || (0x90 ≤ op && op ≤ 0xAA && decide (64 ≤ (mine.filter homeKind).length))

/-- Whether the egress ring is full (R434). -/
def State.egressFull (s : State) : Bool :=
  decide (2 ^ (s.regs.egctl.extractLsb' 0 4).toNat ≤ (s.regs.egprod - s.regs.egcons).toNat)

/-- Whether the next record of the egress ring waits: its entry lies in a page that moves, or an earlier record is on its way to the new home
of its entry (R338, R434). -/
def State.egressMoved (s : State) : Bool := (s.moving && s.inLentPage s.egressAt) || s.reqs.any MemReq.isEgress

/-- Whether an HOUT is due whose record the ring has room for, in an entry that stands in a line (R363, R434). -/
def State.egressWrites (s : State) (line : Nat) : Bool :=
  s.egressAt / 128 == line && !s.egressFull && s.agenda.any (fun a =>
    match a with
    | .fire c st g => s.opAt c st == 0xB8 && s.runs c g && s.matched c st 0xB8 (s.recAt c st) g
        && !(s.region c).blocked.any (fun b => b.1 == st)
    | _ => false)

/-- An HOUT whose record would go into a counter line with slabs out has them recalled (R363). -/
def State.noteEgress (s : State) (c st : Nat) : State :=
  if s.opAt c st == 0xB8 && s.slabsOut (s.egressAt / 128) then s.recallFor (s.egressAt / 128) 0 else s

/-- Whether the flag write of the CHEXP in hand finds no Landing room (R387). -/
def State.flagOverLimit (s : State) (x : Site) : Bool :=
  !s.landingFits x.cluster x.tag (s.regs.flagbase.toNat + 8 * (x.bw.extractLsb' 0 16).toNat) 8

/-- Whether the firing of a station was held for Landing room before: it stays held until the claim or the discard (R388). -/
def State.heldThere (s : State) (c st : Nat) (g : Word) : Bool :=
  match s.specOf c g with
  | some (_, x) => x.heldAt.contains (c, st)
  | none => false

/-- A CHEXP of a speculation that finds no Landing room is held from now on (R387, R388). -/
def State.noteHeld (s : State) (c st : Nat) (g : Word) : State :=
  let site := s.firingSite c st (s.opAt c st) (s.recAt c st) g
  match s.specOf c g with
  | some (q, x) =>
    if s.opAt c st == 0xB6 && !x.heldAt.contains (c, st) && s.flagOverLimit site then
      s.updFerry q (fun f => { f with spec := some { x with heldAt := (c, st) :: x.heldAt } })
    else s
  | none => s

/-- Whether a speculation holds the firing in hand (R388). -/
def State.specWithheld (s : State) (x : Site) (op : Nat) : Bool :=
  s.isSpec x.cluster x.tag &&
    ((op == 0xF5 && (x.bw == 3 || x.bw == 4)) || op == 0xB8
      || (op == 0xB9 && x.bw.extractLsb' 21 11 == 0 && !s.unknownDevice (x.bw.extractLsb' 0 12).toNat)
      || (op == 0xB6 && (s.heldThere x.cluster x.station x.tag || s.flagOverLimit x)))

/-- Whether a firing acts at the system register port of its region (R206). -/
def isSysOp (op : Nat) : Bool := op == 0xF4 || op == 0xF5

/-- Whether a station with a lower address fired at the system register port of a region in this cycle: firings of one cycle go there in
ascending order, so that this one waits for the next (R206). -/
def State.sysPassed (s : State) (c st : Nat) : Bool :=
  (s.region c).sysAt.1 == s.cycle && decide (st < (s.region c).sysAt.2)

/-- Whether a SYSRD or SYSWR waits for one of another element with a lower address that can fire in the same cycle (R206). -/
def State.sysWithheld (s : State) (c st : Nat) : Bool :=
  s.sysPassed c st || s.agenda.any (fun a =>
    match a with
    | .fire d a g =>
      d == c && decide (a < st) && elementOf a != elementOf st && isSysOp (s.opAt c a) && s.runs c g
        && s.matched c a (s.opAt c a) (s.recAt c a) g && !(s.region c).blocked.any (fun b => b.1 == a) && !s.sysPassed c a
    | _ => false)

/-- Whether something withholds the firing in hand: a result that still waits for a credit (R36), the waves (R43, R44), its memory
port, a full trigger queue (R258), a full egress ring, the recall of a counter in its place (R363) or an earlier operation of a releasing HOUT (R266), a speculation (R388), the turn
of another SYSRD or SYSWR of the cycle (R206).
A firing that port P suppresses is withheld by its port alone (R89). -/
def State.withheld (s : State) (x : Site) (op : Nat) (r : Rec) : Bool :=
  (s.region x.cluster).blocked.any (fun b => b.1 == x.station)
    || (0x1100 ≤ x.station && x.station < 0x1200 && s.portWithheld x op r)
    || (isSysOp op && s.sysWithheld x.cluster x.station)
    || (x.go &&
        (s.waveWithheld x op r
          || (op == 0xB2 && !s.hasCredit x.cluster (triggerKey (x.bw.extractLsb' 0 6).toNat))
          || (op == 0xB8 && (s.egressFull || s.egressMoved || s.slabsOut (s.egressAt / 128) || (r.flags.getLsbD 0 && s.issuedOf x.cluster x.tag != [])))
          || s.specWithheld x op))

/-- The contexts of the configuration that holds a station of a cluster, oldest first (R265); none where no configuration does. -/
def State.ownersOf (s : State) (c st : Nat) : List Ctx :=
  let r := s.region c
  let live := (s.ctxsOf c).filter (fun k => !k.killed)
  match r.residents.find? (fun e => (e.addrs.map (fun a => r.moved.getD a a)).contains st) with
  | some e => live.filter (fun k => k.cfg == e.tag)
  | none => []

/-- Whether a station is an ingress node (R265). -/
def isHin (st : Nat) : Bool := decide (0x1910 ≤ st) && decide (st < 0x1918)

/-- What is in hand when an ingress node fires on the record at the head of its queue: the token with the CTX of the oldest live
context of its configuration (R265); none while there is no such context, or no token for a port P in use (R89). -/
def State.hinSite (s : State) (c st : Nat) : Option Site :=
  match (s.region c).ingress.getD (st - 0x1910) [], s.ownersOf c st with
  | e :: _, k :: _ =>
    let g := mkTag k.ctx (tagWave e.wtag) (tagSub e.wtag)
    let x : Site := { cluster := c, station := st, tag := g, a := .narrow e.value }
    let p := (s.recAt c st).p.act
    if p = .immediate then some x
    else (s.tokenFor c st .p p g).map (fun t => { x with go := t.value.word.getLsbD 0 })
  | _, _ => none

/-- Whether a due firing may go: its context may fire, its station is matched for the tag, and nothing withholds it. -/
def State.canFire (s : State) (c st : Nat) (g : Word) : Bool :=
  if isHin st then
    match s.hinSite c st with
    | some x => !(s.region c).draining && s.runs c x.tag && s.spanAllows c x.tag && !(s.region c).blocked.any (fun b => b.1 == st)
    | none => false
  else
    let r := s.recAt c st
    let op := s.opAt c st
    s.runs c g && s.matched c st op r g && !s.withheld (s.firingSite c st op r g) op r

/-- Whether some station of a cluster waits for a credit: a result waits at it, or a CFIRE that could fire finds its trigger queue full
(R36, R210, R258). -/
def State.creditHeld (s : State) (c : Nat) : Bool :=
  (s.region c).blocked.any (fun b => (classOf? b.1).isSome)
    || s.agenda.any (fun a =>
      match a with
      | .fire d st g =>
        let r := s.recAt c st
        let x := s.firingSite c st 0xB2 r g
        d == c && s.opAt c st == 0xB2 && s.runs c g && s.matched c st 0xB2 r g && x.go
          && !s.hasCredit c (triggerKey (x.bw.extractLsb' 0 6).toNat)
      | _ => false)

/-- Whether some WADV of a cluster that is due is withheld by R43 or R44. -/
def State.wadvHeld (s : State) (c : Nat) : Bool :=
  s.agenda.any (fun a =>
    match a with
    | .fire c' st g => c' == c && s.wadvStalled c st g
    | _ => false)

/-- A counter of a region goes up (R210). -/
def Region.count (r : Region) (sel n : Nat) : Region :=
  { r with perf := r.perf.set sel (r.perf.getD sel 0 + BitVec.ofNat 32 n) }

/-- The counters of cycles of a region for a number of fabric cycles: some WADV held, the store buffer full, a station that
waits for a credit (R210), and the entries that input queues hold (R417). -/
def Region.countCycles (r : Region) (held credit : Bool) (n : Nat) : Region :=
  let r := { r with occupied := r.inUse.foldl (fun t e => t.set e.1 (t.getD e.1 0 + e.2 * n)) r.occupied }
  let r := if held then r.count 3 n else r
  let r := if 256 ≤ r.entries then r.count 5 n else r
  if credit then r.count 6 n else r

/-- Time passes: the counter of the model, fabric cycles with the counters of PERF, and reference counts, in amounts that are not
architectural (R7, R209, R210). -/
def State.tick (s : State) : State :=
  { s with ticks := s.ticks + 1, cycle := s.cycle + Config.cycles s.ticks,
           refCount := s.refCount + Config.refCounts s.ticks,
           regions := s.regions.map (fun (e : Nat × Region) =>
             (e.1, e.2.countCycles (s.wadvHeld e.1) (s.creditHeld e.1) (Config.cycles s.ticks))) }

/-- Whether the tokens of a due firing still stand. -/
def State.stillMatched (s : State) (c st : Nat) (g : Word) : Bool :=
  if isHin st then (s.region c).ingress.getD (st - 0x1910) [] != [] else s.matched c st (s.opAt c st) (s.recAt c st) g

/-- The arbitration state of a station. -/
def State.arbOf (s : State) (c st : Nat) : Arb := (s.region c).arb.getD st {}

/-- The station whose expansion the next MSEQ step in hand belongs to, where the step can be sent now: each step is one firing (R309). -/
def State.stepStation (s : State) (x : Site) : Option Nat :=
  match (s.region x.cluster).expansions.find? (fun e => e.id == x.id) with
  | some e =>
    if s.runs x.cluster e.tag && !(s.region x.cluster).blocked.any (fun b => b.1 == e.station) then some e.station else none
  | none => none

/-- The due firings of an element that can go, MSEQ steps among them, by station in due order. -/
def State.readyAt (s : State) (c e : Nat) : List (Nat × Activity) :=
  s.agenda.filterMap (fun a =>
    match a with
    | .fire c' st g => if c' = c ∧ elementOf st = e ∧ s.canFire c st g then some (st, a) else none
    | .event .mseqStep x =>
      (match s.stepStation x with
       | some st => if x.cluster = c ∧ elementOf st = e then some (st, a) else none
       | none => none)
    | _ => none)

/-- Among ready firings the arbiter takes the station with the largest deficit, ties by the lower slot (R37). -/
def State.arbitrate (s : State) (c : Nat) : List (Nat × Activity) → Nat × Activity → Nat × Activity
  | [], best => best
  | x :: rest, best =>
    let d := (s.arbOf c x.1).deficit
    let m := (s.arbOf c best.1).deficit
    s.arbitrate c rest (if m < d ∨ (m = d ∧ x.1 < best.1) then x else best)

/-- The arbiter's counts after a station fires: its deficit is cleared, the other ready stations gain their weight (R37); PERF
counter 0 counts the firing (R210), and so does its element's count of the period (R417). A SYSRD or SYSWR is noted (R206). -/
def State.countFiring (s : State) (c st : Nat) (ready : List Nat) : State :=
  s.updRegion c (fun r =>
    let arb := ready.foldl (fun t o =>
      let a := t.getD o {}
      if o = st then t.set o { a with deficit := 0 } else t.set o { a with deficit := a.deficit + a.weight }) r.arb
    { r with arb := arb, perf := r.perf.set 0 (r.perf.getD 0 0 + 1)
             sysAt := if isSysOp (s.opAt c st) then (s.cycle, st) else r.sysAt
             fired := r.fired.set (elementOf st) (r.fired.getD (elementOf st) 0 + 1) })

/-- The station's instruction with its operands in hand. A WADV that fires waits no more, unless another of its tags is stalled (R58,
R59). -/
def State.fetchStation (s : State) (c st : Nat) (g : Word) : Fetched :=
  match decodeRecord (classAt st) (s.raw c st) with
  | .ok i =>
    let x := if isHin st then (s.hinSite c st).getD {} else s.firingSite c st (s.opAt c st) (s.recAt c st) g
    let s := if s.opAt c st = 0x06 then s.endWait c st else s
    .run i { s with cur := x }
  | .error _ => .stuck c st

/-- A firing that is ready: the arbiter of its element takes one of the ready ones; the others stay due (R37). -/
def State.fetchReady (s : State) (c st : Nat) (a : Activity) : Fetched :=
  let ready := s.readyAt c (elementOf st)
  let w := s.arbitrate c ready (st, a)
  let s := if w.2 = a then s else { s with agenda := s.agenda.erase w.2 ++ [a] }
  let s := s.countFiring c w.1 ((st :: ready.map (fun x => x.1)).eraseDups)
  match w.2 with
  | .fire _ st g => s.fetchStation c st g
  | .event i x => .run i { s with cur := x }
  | _ => .pass s

/-- A due firing goes through the arbiter of its element where it is ready, and stays due while its tokens stand. -/
def State.fetchFire (s : State) (c st : Nat) (g : Word) : Fetched :=
  if s.canFire c st g then s.fetchReady c st (.fire c st g)
  else if s.stillMatched c st g then
    .pass (((if s.wadvStalled c st g then s.startWait c st else s.endWait c st).noteHeld c st g).noteEgress c st |>.due (.fire c st g))
  else .pass (s.endWait c st)

/-! ## Control tokens, commands and packets -/

/-- The token at the head of an MO's queue: it waits while the MO runs another or its context may not fire (R303, R414); a
reserved MOPC raises ILLEGAL and the token is consumed (R101). -/
def State.fetchControl (s : State) (c m : Nat) : Fetched :=
  match (s.mo c m).queue with
  | [] => .pass s
  | t :: rest =>
    if (s.mo c m).run.isSome || !s.runs c t.tag then .pass (s.due (.control c m))
    else
      match decodeControl t.word with
      | .ok i =>
        .run i { s with cur := { cluster := c, station := 0x12C0 + m, tag := t.tag, a := .narrow t.word, word := t.word,
                                 pair := t.pair, id := m } }
      | .error _ =>
        let s := s.updMo c m (fun o => { o with queue := rest })
        let s := ((s.spend c t.tag t.reply).freeCredit c ((0x12C0 + m) * 8) t.tag).takeTrap .illegal c (0x12C0 + m) t.tag t.word 0
        .pass (if rest.isEmpty then s else s.dueOnce (.control c m))

/-- The next word of the stream in delivery to a region, or the event that its words have run out (R69). -/
def State.fetchCommand (s : State) (c : Nat) : Fetched :=
  match (s.region c).delivery with
  | none => .pass s
  | some d =>
    match d.words with
    | [] => .run .streamCutShort { s with cur := { cluster := c } }
    | w :: rest =>
      let s := s.updRegion c (fun r => { r with delivery := some { d with words := rest } })
      .run (decodeCommand w) { s.dueOnce (.command c) with cur := { cluster := c, word := w } }

/-- The status codes of R411. -/
inductive PacketStatus where
  | ok | priv | format | rect | handle | stream | load | seqlimit | killed | watchdog | feature
  deriving DecidableEq, Repr

/-- The number of a packet status (R411). -/
def PacketStatus.code : PacketStatus → Nat
  | .ok => 0 | .priv => 1 | .format => 2 | .rect => 3 | .handle => 4 | .stream => 5 | .load => 6 | .seqlimit => 7
  | .killed => 8 | .watchdog => 9 | .feature => 10

/-- The packet in progress at a queue completes (R404): CSEQ counts it, and a failure posts an EVTYPE 2 event (R411) with the
fields given. The next packet may then be selected. -/
def State.completePacket (s : State) (q : Nat) (st : PacketStatus) (e : EventRec) (notify : Bool) : State :=
  let pseq := ((s.queue q).current.map (fun k => k.pseq.toNat)).getD 0
  let s := s.updQueue q (fun k => { k with current := none, waiting := none, cseq := k.cseq + 1 })
  let s := if st = .ok ∧ !notify then s
    else s.post q { e with evtype := 2, code := st.code, queue := q, pseq := pseq }
  s.dueOnce (.event .dispatchSelect {})

/-- The packet in progress at a queue: decoded, or completed with FORMAT or PRIV (R400). -/
def State.fetchPacket (s : State) (q : Nat) : Fetched :=
  match (s.queue q).current with
  | none => .pass s
  | some k =>
    match decodePacket q k.bytes with
    | .ok i => .run i { s with cur := { queue := q } }
    | .error .priv => .pass (s.completePacket q .priv { evtype := 2 } false)
    | .error _ => .pass (s.completePacket q .format { evtype := 2 } false)

/-- An event. A step of an MSEQ expansion that can be sent goes through the arbiter of its sequencer (R309). -/
def State.fetchEvent (s : State) (i : Instr) (x : Site) : Fetched :=
  match (if i = .mseqStep then s.stepStation x else none) with
  | some st => s.fetchReady x.cluster st (.event i x)
  | none => .run i { s with cur := x }

/-- Whether a write of the host to memory is on its way to the page's new home: the host's later register writes wait for it (R403, R441). -/
def State.hostForwards (s : State) : Bool := s.reqs.any (fun q => q.cluster == 64 && q.station == 66 && q.kind == .store)

/-- The packet error code of the management bus over some bytes: the CRC-8 of the SMBus specification, x^8 + x^2 + x + 1, most significant bit
first (R454; PRESUMED from that specification, log 118). -/
def smbusPec (bytes : List Byte) : Byte :=
  bytes.foldl (fun c b => (List.range 8).foldl (fun (c : Byte) _ => if c.getLsbD 7 then (c <<< 1) ^^^ 0x07#8 else c <<< 1) (c ^^^ b)) 0

/-- The 7-bit address of the management interface (R454). -/
def Tollhouse.smbusAddr (t : Tollhouse) : BitVec 7 := if t.strap then 0x5B else 0x5A

/-- What the board does at the management bus and the reset pin. A block write for another address, or with a bad packet error code, is no
command. The block read of RESET's answer lets the device reset begin (R454). -/
def State.boardAct (s : State) : BoardAct → State
  | .smbusWrite addr code payload pec =>
    let head : Byte := s.toll.smbusAddr ++ (0 : BitVec 1)
    if !s.toll.off && addr == s.toll.smbusAddr && pec == smbusPec (head :: code :: BitVec.ofNat 8 payload.length :: payload) then
      { s with agenda := .manage code payload :: s.agenda, picks := 0 :: s.picks }
    else s
  | .smbusRead addr code =>
    if !s.toll.off && addr == s.toll.smbusAddr && code == s.toll.answerTo && s.toll.resetDue && code == 0x09 then
      { s with toll := { s.toll with resetDue := false } }.dueEvent .deviceReset { id := 1 }
    else s
  | .resetPin held => { s with scan := { s.scan with reset := held } }

/-- What the chosen activity comes to. A register write waits for the host's earlier writes that are on their way elsewhere. -/
def State.fetchActivity (s : State) : Activity → Fetched
  | .fire c st g => s.fetchFire c st g
  | .control c m => s.fetchControl c m
  | .command c => s.fetchCommand c
  | .packet q => s.fetchPacket q
  | .write off bs =>
    if s.hostForwards then .pass { s with agenda := .write off bs :: s.agenda } else .run (decodeWrite off bs) { s with cur := {} }
  | .manage code p => .run (decodeManage code p) { s with cur := {} }
  | .scan ir => .run (decodeScan ir) { s with cur := { word := ir.zeroExtend 32 } }
  | .board b => .pass (s.boardAct b)
  | .event i x => s.fetchEvent i x

/-- The next instruction. With nothing due, time passes. -/
def State.fetch (s : State) : Fetched :=
  match s.choose with
  | none => .pass s
  | some (a, s) => s.fetchActivity a

/-! ## Placing an instruction where the next step takes it -/

/-- A live context with CTX 0 on cluster 0, of no launch. -/
def placedCtx (id : Nat) : Ctx :=
  { id := id, ctx := 0, rect := { x0 := 0, y0 := 0, lw := 0, lh := 0 }, cfg := 0, launch := 0, trapped := false,
    killed := false, saved := false, spec := false, seeded := true }

/-- An activity that goes before everything else that is due. -/
def State.first (s : State) (a : Activity) : State := { s with agenda := a :: s.agenda, picks := 0 :: s.picks }

/-- The station of cluster 0 that a placed record goes to: the first of a class that its opcode and fields allow. -/
def placedStation (w : RawRecord) : Nat :=
  match (classesOf w.opcode).find? (fun c => recordOk c w.opcode (Rec.ofRaw w)) with
  | some .pe | none => 0x0000
  | some .ve => 0x1000
  | some .mem => 0x1100
  | some .conv => 0x1200
  | some .seqr => 0x1280
  | some .join => 0x1300
  | some .chan => 0x1380
  | some .hostIn => 0x1910
  | some .hostOut => 0x1918

/-- A token of value 1 for a port of a placed record, of the width and the standing the record asks for. -/
def placedToken (st op : Nat) (r : Rec) (p : Port × Action) : MatchEntry :=
  { station := st, port := p.1, request := false,
    value := if portWidth (classAt st) op r p.1 = some .wide then .wide 1 else .narrow 1,
    tag := 0, sticky := p.2 = .sticky, spilled := false }

/-- The record of a block that holds every own number and never closes (R93). -/
def placedBlock : RawRecord := { f0 := 0x1DF0#16 }

/-- The blocks that a placed record needs: its own, and the one that a block number on port B names, immediate or token. -/
def placedBlocks (r : Rec) : List Nat :=
  [r.block.toNat, if r.b.act = .immediate then (r.f6.extractLsb' 0 8).toNat else 1]

/-- A cluster whose matrix operator 0 finds a control token at the head of its queue. -/
def State.placeControl (s : State) (w : Word) : State :=
  let s := { s with contexts := placedCtx s.nextId :: s.contexts, nextId := s.nextId + 1 }
  ((s.updMo 0 0 (fun m => { m with queue := { word := w, tag := 0, pair := none } :: m.queue })).flightUp 0 0).first
    (.control 0 0)

/-- A cluster whose station holds a record with a token at every port it takes tokens on, or whose ingress node has a record
waiting. -/
def State.placeRecord (s : State) (w : RawRecord) : State :=
  let st := placedStation w
  let r := Rec.ofRaw w
  let ports := (tokenPorts w.opcode r).filter (fun p => st != 0x1910 || p.1 == .p)
  let tokens := ports.map (placedToken st w.opcode r)
  let rec0 : IngressRec := { cluster := 0, node := 0, value := 1, wtag := 0 }
  let s := { s with contexts := placedCtx s.nextId :: s.contexts, nextId := s.nextId + 1 }
  let s := s.updRegion 0 (fun k =>
    { k with records := (placedBlocks r).foldl (fun t b => t.set (0x1800 + b) placedBlock) (k.records.set st w)
             store := tokens ++ k.store
             ingress := if st = 0x1910 then k.ingress.set 0 (rec0 :: k.ingress.getD 0 []) else k.ingress
             residents := if st = 0x1910 then { tag := 0, addrs := [st], used := 0 } :: k.residents else k.residents
             halted := false, asleep := false })
  let s := tokens.foldl (fun s e => if e.sticky then s else s.flightUp 0 e.tag) s
  (s.enterBlock 0 r.block.toNat 0).first (.fire 0 st 0)

/-- A queue 0 whose packet in progress is the one given. -/
def State.placePacket (s : State) (p : BitVec 512) : State :=
  (s.updQueue 0 (fun k =>
    { k with current := some { bytes := p, pseq := k.pseq, begun := true, stopped := false, args := [], binds := [] } })).first (.packet 0)

/-- The code stored where the next step takes its instruction. -/
def State.place (s : State) : Code → State
  | .record w => s.placeRecord w
  | .control w => s.placeControl w
  | .packet q p => if q = 0 then s.placePacket p else s
  | .scan ir => s.first (.scan ir)
  | .write off bs => s.first (.write off bs)
  | .manage c p => s.first (.manage c p)
  | .command w =>
    let d : Delivery :=
      { words := [w], phase := .start, summed := [], tag := 0, records := [], written := [], amend := false,
        job := 0 }
    (s.updRegion 0 (fun r => { r with delivery := some d })).first (.command 0)

end Sys2Proof.Machine
end

