-- ==== Sys2Proof/Machine/Memory.lean ====
section
/-! DEFINITION. Loads, stores and residency (groups 0x7 and 0x8: R227 to R236), reaching bytes through translation, caches and vaults
(R313 to R327), the arrival of operations at the store buffer and the replies of requests. -/

namespace Sys2Proof.Machine

open Sys2Proof

/-! ## Vault slots (R324 to R327) -/

/-- The bytes of a run of sparse memory moved to another place, whose old contents go. -/
def moveBytes (src : Bytes) (lo n : Nat) (dst : Bytes) (at_ : Nat) : Bytes :=
  (src.filter (fun e => decide (lo ≤ e.1) && decide (e.1 < lo + n))).foldl (fun m e => m.put (at_ + (e.1 - lo)) e.2)
    (dst.filter (fun e => decide (e.1 < at_) || decide (at_ + n ≤ e.1)))

/-- Every cache of the device drops the lines of a page (R326). -/
def State.dropPage (s : State) (page : Nat) : State :=
  let mine := fun (line : Nat) => line / 512 == page
  { s with
    regions := s.regions.map (fun (e : Nat × Region) =>
      (e.1, { e.2 with l1 := e.2.l1.filter (fun l => !mine l.1), evicting := e.2.evicting.filter (fun l => !mine l.1) }))
    dies := s.dies.map (fun (e : Nat × Die) =>
      (e.1, { e.2 with l2 := e.2.l2.filter (fun l => !mine l.1), evicting := e.2.evicting.filter (fun l => !mine l.1),
                       holders := e.2.holders.filter (fun l => !mine l.1) }))
    dir := s.dir.map (fun (e : Nat × DirEntry) => (e.1, if mine e.1 then { e.2 with dies := [.i, .i, .i, .i] } else e.2)) }

/-- A slot's page goes back to its backing page, and the slot is EMPTY (R325, R236). -/
def State.emptySlot (s : State) (c n : Nat) : State :=
  match (s.region c).vault.get? n with
  | none => s
  | some v =>
    let r := s.region c
    let s := { s with mem := moveBytes r.vaultBytes (n * 65536) 65536 s.mem (v.page * 65536) }
    s.updRegion c (fun r =>
      { r with vault := r.vault.erase n
               vaultBytes := r.vaultBytes.filter (fun e => decide (e.1 < n * 65536) || decide ((n + 1) * 65536 ≤ e.1)) })

/-- An EMPTY slot fills with a backing page (R325). -/
def State.fillSlot (s : State) (c n page : Nat) : State :=
  let s := s.dropPage page
  s.updRegion c (fun r =>
    { r with vault := r.vault.set n { page := page, pinned := false, dirty := false }
             vaultBytes := moveBytes s.mem (page * 65536) 65536 r.vaultBytes (n * 65536) })

/-- A slot of a cluster made to hold a backing page; none where R324 or R325 gives ACCESS. -/
def State.openNumber (s : State) (c n page : Nat) : Option State :=
  if 480 ≤ n then none
  else
    match (s.region c).vault.get? n with
    | some v =>
      if v.page = page then some s
      else if v.pinned ∨ (s.residentSlot page).isSome then none
      else some ((s.emptySlot c n).fillSlot c n page)
    | none => if (s.residentSlot page).isSome then none else some (s.fillSlot c n page)

/-- The slot of an aperture address, and its number among the slots of the device. -/
def slotOf (va : Nat) : Nat := (va - 0xFFFFF80000000) % 0x2000000 / 65536

def slotNumber (va : Nat) : Nat := apertureCluster va * 512 + slotOf va

/-- The slot of an aperture address made to hold its backing page. -/
def State.openSlot (s : State) (va page : Nat) : Option State := s.openNumber (apertureCluster va) (slotOf va) page

/-! ## Reaching bytes -/

/-- Whether the bytes of an access can be read or written now. -/
inductive Reach where
  | here (pa : Nat) (s : State)
  | wait (s : State)
  deriving DecidableEq, Repr

/-- A request that a speculation may not perform waits at its port for the claim (R388). -/
def State.pauseReq (s : State) (id : Nat) : State := s.updReq id (fun q => { q with stage := .paused })

/-- A request goes back to translation later. -/
def State.retryReq (s : State) (id : Nat) : State := s.dueEvent .pageWalk { id := id }

/-- The trap of a code that another device has answered with (R413). -/
def Trap.ofCode (n : Nat) : Trap :=
  ([Trap.align, .page, .quarry, .badTarget, .illegal].find? (fun t => t.code == n)).getD
    (if n = Trap.access.code then .access else .machineCheck)

/-- An answer leaves for the device or the host that asked: the number of its access, the bytes, and the trap code of a refusal or
0. -/
def State.answer (s : State) (id : Nat) (data : List Byte) (code : Nat) : State :=
  { s with outbox := s.outbox ++ [(id, data, code)] }

/-- A soft error is reported to the tollhouse: the log keeps the last 256 (R453). -/
def State.logError (s : State) (e : SoftError) : State :=
  let entry : LogEntry := { time := BitVec.ofNat 64 s.refCount, die := e.die, unit := e.unit, kind := e.kind }
  { s with toll := { s.toll with log := (entry :: s.toll.log).take 256, unread := true } }

/-- The report of an uncorrectable soft error in a line of memory: its die, and as the unit its HBM4 stack (R314, log 112). -/
def lineError (line : Nat) : SoftError := { die := BitVec.ofNat 8 (homeOf line), unit := BitVec.ofNat 8 (stackOf line), kind := 0, line := some line }

/-- The report of the error in a line, as it struck there (R453). -/
def State.errorAt (s : State) (line : Nat) : SoftError := (s.errors.get? line).getD (lineError line)

/-- The error in a line has been met. -/
def State.unpoison (s : State) (line : Nat) : State :=
  { s with poisoned := s.poisoned.filter (fun l => l != line), errors := s.errors.erase line }

/-- An uncorrectable soft error meets the access: MACHINE_CHECK in its context (R329), and a counter is LOST (R376). A speculation is
discarded by it, with a report to the tollhouse at the discard (R389). -/
def State.meetError (s : State) (q : MemReq) (line : Nat) : State :=
  if s.poisoned.contains line then
    let t := (s.unpoison line).loseCounter line
    if s.isSpec q.cluster q.tag then (t.takeTrap .machineCheck q.cluster q.station q.tag q.a q.b).logError (s.errorAt line)
    else t.takeTrap .machineCheck q.cluster q.station q.tag q.a q.b
  else s

/-- The access of another device's memory leaves over Span (R337). -/
def State.sendSpan (s : State) (q : MemReq) (d pa : Nat) : State :=
  (s.updReq q.id (fun q => { q with stage := .away })).toSpan q.id d pa

/-- Whether a lookup of the L1 for a request counts when it misses (R210): those of loads, stores, tiles, streamed operands and copies. -/
def MemReq.missCounts (q : MemReq) : Bool :=
  match q.kind with
  | .pin _ | .unpin _ | .flush _ | .inval _ | .descriptor _ => false
  | _ => true

/-- The translation of an address for a request: the one that a demand service made in a freeze, where there is one of that address
(R429). -/
def State.translateReq (s : State) (q : MemReq) (va : Nat) (write : Bool) : Except (Option Nat × Trap × Bool) Translation :=
  match q.early.filter (fun e => e.1 == va) with
  | some e => .ok e.2
  | none => s.translate q.cluster q.tag (s.rootOf q.cluster q.tag) va write

/-- Whether a request's context is gone, or is a discarded speculation, which performs nothing more (R396). -/
def State.isGone (s : State) (q : MemReq) : Bool :=
  match s.ctxAt q.cluster (tagCtx q.tag) with
  | some k => k.killed && k.spec
  | none => true

/-- A request of a speculation that is discarded meanwhile is given up, unless the discard has taken it (R396). -/
def State.giveUp (s : State) (q : MemReq) : State := if (s.req? q.id).isSome then s.abandonReq q else s

/-- The entries that a translation of an address for a request reads. -/
def State.walkedBy (s : State) (q : MemReq) (va : Nat) : List Nat :=
  match q.early.filter (fun e => e.1 == va) with
  | some _ => []
  | none => (s.lookUp q.cluster q.tag (s.rootOf q.cluster q.tag) va).2

/-- The lines of some entries. -/
def tableLines (walked : List Nat) : List Nat := (walked.map (fun a => a / 128)).eraseDups

/-- A walk that reads tables in the page in hand-over waits for them (R338); a speculation may not read them, and waits at its port (R386,
R388). -/
def State.awaitTables (s : State) (q : MemReq) (walked : List Nat) : State :=
  if (s.specOf q.cluster q.tag).isSome then s.pauseReq q.id else (s.askFar (tableLines walked)).retryReq q.id

/-- A request meets the errors in the lines of the entries that it has read (R329). -/
def State.meetWalk (s : State) (q : MemReq) (walked : List Nat) : State := walked.foldl (fun s a => s.meetError q (a / 128)) s

/-- A walk that comes to a fault has read its entries: their errors are met (R329), and a speculation watches their lines, where it may watch
more (R386, R388). -/
def State.faultWalk (s : State) (q : MemReq) (va : Nat) (walked : List Nat) (f : Option Nat × Trap × Bool) : State :=
  let lines := s.entryLines q.cluster q.tag walked
  if !s.watchFits q.cluster q.tag lines then s.pauseReq q.id
  else
    let s := (s.meetWalk q walked).useFar (tableLines walked)
    if s.isGone q then s.giveUp q else (s.watchLines q.cluster q.tag lines).walkFault q va f

/-- The bytes that a request has reached, once it has met an error in their line (R329). -/
def State.hereAt (s : State) (q : MemReq) (pa : Nat) : Reach :=
  let s := (s.meetError q (pa / 128)).updReq q.id (fun q => { q with sent := match q.kind with | .quarry _ | .atomic _ | .phaser _ => q.sent | _ => none })
  if s.isGone q then .wait (s.giveUp q) else .here pa s

/-- The bytes va to va + n − 1 of a request, within one line: translated, permitted, and held where MT says (R313 to R320, R324
to R327). `inPort` says that the request stands at the vault port of an aperture address, `home` that it is performed at the home.
A line of a page that stands in a vault slot is reached there, and no cache takes a copy (R326). Where the bytes cannot be reached yet,
the request waits for a line, for its turn at a vault, at its port, or for another device; an access to a page in hand-over waits while
it moves and is then forwarded (R338). What another device has answered is at hand, whatever DEVID has become since (R430). -/
def State.reach (s : State) (q : MemReq) (va n : Nat) (write inPort home : Bool) : Reach :=
  let root := s.rootOf q.cluster q.tag
  let second := if 0 < q.agen then q.second else none
  let walked := if second.isSome then [] else s.walkedBy q va
  if !s.linesHere (tableLines walked) then .wait (s.awaitTables q walked)
  else match (match second with | some t => Except.ok t | none => s.translateReq q va write) with
  | .error f => .wait (s.faultWalk q va walked f)
  | .ok t =>
    let spec := (s.specOf q.cluster q.tag).isSome
    let phaser := match q.kind with | .phaser _ => true | _ => false
    let reads := if write && !phaser then [] else s.readLines q.cluster q.tag t.pa n
    if spec && !s.watchFits q.cluster q.tag (s.entryLines q.cluster q.tag t.walked ++ reads) then .wait (s.pauseReq q.id)
    else
    let s := (s.meetWalk q t.walked).useFar (tableLines t.walked)
    if s.isGone q then .wait (s.giveUp q)
    else
    let s := s.markLeaf q.cluster q.tag root va t write
    if q.fetched.isSome then .here t.pa s
    else match s.physPlace t.pa with
    | .reserved => .wait (s.holdReq q .access va false)
    | .remote d =>
      if inAperture va then .wait (s.holdReq q .access va false)
      else if spec then .wait (s.pauseReq q.id) else .wait (s.sendSpan q d t.pa)
    | _ =>
      if s.inLentPage t.pa then
        (if spec then .wait (s.pauseReq q.id)
         else if s.moving then .wait (s.retryReq q.id)
         else .wait (s.sendSpan q s.borrower (s.newHome t.pa)))
      else if spec && write && !s.landingFits q.cluster q.tag t.pa n then .wait (s.pauseReq q.id)
      else if write && !spec && (match q.kind with | .quarry _ => false | _ => true) && s.slabsOut (t.pa / 128) then
        .wait ((s.updReq q.id (fun q => { q with stage := .away })).dueEvent .counterLineWrite
          { cluster := q.cluster, index := t.pa / 128, id := q.id })
      else if inAperture va then
        if !inPort then .wait (s.sendVault q (apertureCluster va))
        else match s.openSlot va (t.pa / 65536) with
          | none => .wait (s.holdReq q .access va false)
          | some s => s.hereAt q t.pa
      else if home || leafMt t.leaf = 1 || (spec && write) || (s.residentSlot (t.pa / 65536)).isSome then s.hereAt q t.pa
      else if s.l1Serves q.cluster (t.pa / 128) write then
        let s := if write then s.updRegion q.cluster (fun r =>
            { r with l1 := updEntry r.l1 (t.pa / 128) (fun l => { l with state := .m }) }) else s
        s.hereAt q t.pa
      else .wait (s.askLine q.cluster (t.pa / 128) write q.id q.missCounts)

/-- The bytes that a read finds: those that another device has answered, or those here (R337). -/
def State.readReached (s : State) (q : MemReq) (pa n : Nat) : List Byte × State :=
  match q.fetched with
  | some b => ((b ++ List.replicate n 0).take n, s.updReq q.id (fun q => { q with fetched := none }))
  | none => (s.readFor q.cluster q.tag pa n, s.watch q.cluster q.tag pa n)

/-- The bytes of a write go to what it has reached, unless another device has written them (R337). -/
def State.writeReached (s : State) (q : MemReq) (pa : Nat) (bytes : List Byte) : State :=
  if q.fetched.isSome then s.updReq q.id (fun q => { q with fetched := none }) else s.writeFor q.cluster q.tag pa bytes

/-! ## Loads and stores (R227, R228, R336) -/

/-- The bytes before the line boundary that an access crosses, its size where it crosses none (R336). -/
def firstPart (va n : Nat) : Nat := min n (128 - va % 128)

/-- Whether two pages may hold the parts of one split access (R336). -/
def sameAttributes (a b : Translation) : Bool :=
  leafMt a.leaf == leafMt b.leaf && leafW a.leaf == leafW b.leaf && leafShr a.leaf == leafShr b.leaf

/-- A translation for a request, with ACCESS for a place that it cannot name (R313, R326). -/
def State.translateTo (s : State) (q : MemReq) (va : Nat) (write : Bool) : Except (Option Nat × Trap × Bool) Translation :=
  match s.translateReq q va write with
  | .error f => .error f
  | .ok t =>
    match s.physPlace t.pa with
    | .reserved => .error (none, .access, false)
    | .remote _ => if inAperture va then .error (none, .access, false) else .ok t
    | _ => .ok t

/-- The starts of the lines that an access meets, the address itself first (R336). -/
def lineStarts (va n : Nat) : List Nat :=
  va :: (List.range ((va + n - 1) / 128 - va / 128)).map (fun i => (va / 128 + 1 + i) * 128)

/-- The fault of an access of several lines, found before any of it is performed: the first of its parts that does not translate, or ALIGN
at a part whose page has other attributes than the first (R295, R312, R336). With `even` false the pages may differ. -/
def State.splitFault (s : State) (q : MemReq) (write even : Bool) : Option (Nat × (Option Nat × Trap × Bool)) :=
  let va := q.va.toNat
  if firstPart va q.size = q.size ∨ q.size = 0 then none
  else
    let parts := (lineStarts va q.size).map (fun a => (a, s.translateTo q a write))
    match parts.findSome? (fun p => match p.2 with | .error f => some (p.1, f) | .ok _ => none) with
    | some f => some f
    | none =>
      match parts.filterMap (fun p => match p.2 with | .ok t => some (p.1, t) | .error _ => none) with
      | [] => none
      | a :: rest => if even && rest.any (fun b => !sameAttributes a.2 b.2) then some (va, (none, .align, false)) else none

/-- The walks of an access of several lines, before any of it is performed: where they keep it from going on now, what comes of it (R295,
R312, R336). -/
def State.splitWalk (s : State) (q : MemReq) (write even : Bool) : Option State :=
  if firstPart q.va.toNat q.size = q.size ∨ q.size = 0 ∨ q.fetched.isSome then none
  else
    let walked := ((lineStarts q.va.toNat q.size).map (s.walkedBy q)).flatten
    if !s.linesHere (tableLines walked) then some (s.awaitTables q walked)
    else (s.splitFault q write even).map (fun f => s.faultWalk q f.1 walked f.2)

/-- The value that a load's bytes make: extended under R130, or the 128 bytes (R227). -/
def loadValue (q : MemReq) (bytes : List Byte) : Value :=
  if q.size = 128 then .wide (wideOf bytes) else .narrow ((laneType q.fmt).ext (natOfBytes bytes))

/-- The bytes a store writes (R228). -/
def storeBytes (q : MemReq) : List Byte := if q.size = 128 then q.data else bytesOfNat q.size q.b.toNat

/-- A load or store goes on with what its line holds of it; `agen` counts the bytes done. -/
def State.plainPart (s : State) (q : MemReq) (inPort : Bool) : State :=
  let write := q.writes
  let va := q.va.toNat + q.agen
  let n := firstPart va (q.size - q.agen)
  match s.reach q va n write inPort false with
  | .wait s => s
  | .here pa s =>
    let last := q.agen + n = q.size
    if write then
      let s := s.writeReached q pa (((storeBytes q).drop q.agen).take n)
      if last then s.performed q [.narrow 0]
      else (s.updReq q.id (fun q => { q with agen := q.agen + n })).retryReq q.id
    else
      let r := s.readReached q pa n
      let got := q.got ++ r.1
      if last then r.2.performed q [loadValue q got]
      else (r.2.updReq q.id (fun q => { q with agen := q.agen + n, got := got })).retryReq q.id

/-- Whether an aperture address is the first of a bank row of its vault: an access that crosses to it goes on as the same access
(R327). -/
def rowStart (va : Nat) : Bool := inAperture va && va % 1024 == 0

/-- The translation of the second half of a split access is kept with the request before the first half is performed (R336), and a
speculation watches the lines of its walk from then on (R386). None where it may watch no more. -/
def State.keepSecond (s : State) (q : MemReq) : Option (MemReq × State) :=
  match s.translateTo q (q.va.toNat + firstPart q.va.toNat q.size) q.writes with
  | .error _ => some ({ q with second := none }, s)
  | .ok t =>
    let lines := s.entryLines q.cluster q.tag t.walked
    if s.watchFits q.cluster q.tag lines then some ({ q with second := some t }, s.watchLines q.cluster q.tag lines) else none

/-- A load or store goes on: its first half, then its second, each as one access (R336); at a vault port the two that meet at a bank
row are one (R327). Both halves are translated before the first is performed, also where the pages agree. -/
def State.plainAccess (s : State) (q : MemReq) (inPort : Bool) : State :=
  let split := decide (firstPart q.va.toNat q.size < q.size)
  match if q.agen = 0 then s.splitWalk q q.writes true else none with
  | some s => s
  | none =>
  match (if split && q.agen == 0 && q.fetched.isNone then s.keepSecond q else some (q, s)) with
  | none => s.pauseReq q.id
  | some (q, s) =>
    let s := s.updReq q.id (fun _ => q)
    let t := s.plainPart q inPort
    if inPort && q.agen == 0 && split && rowStart (q.va.toNat + firstPart q.va.toNat q.size) then
      match t.req? q.id with
      | some r => if r.stage = .issued ∧ 0 < r.agen then t.plainPart r true else t
      | none => t
    else t

/-! ## The write of an arrival flag (R263, R387, R441) -/

/-- A flag write of a context goes to its flag: into the Landing of a speculation where that has room, on to the new home where the page is
in hand-over (R441), after a recall where the flag stands in a counter line (R363); an error in its
line is met (R329). Its reply, where CHEXP sends one, follows. -/
def State.flagAccess (s : State) (q : MemReq) : State :=
  let pa := q.va.toNat
  let spec := (s.specOf q.cluster q.tag).isSome
  if q.fetched.isSome then s.performed q q.result
  else if spec && (s.inLentPage pa || !s.landingFits q.cluster q.tag pa 8) then s.pauseReq q.id
  else if s.inLentPage pa then (if s.moving then s.retryReq q.id else s.sendSpan q s.borrower (s.newHome pa))
  else if !spec && s.slabsOut (pa / 128) then
    (s.updReq q.id (fun q => { q with stage := .away })).dueEvent .counterLineWrite { cluster := q.cluster, index := pa / 128, id := q.id }
  else
    let s := s.meetError q (pa / 128)
    if s.isGone q then s.giveUp q else ((s.writeFor q.cluster q.tag pa q.data).countEgress q).performed q q.result

/-! ## Residency (R231, R235, R236, R322) -/

/-- PREF asks for a line that no cache of its destination holds: for the cluster's L1, whose lookup counts as a miss (R210), or for its
die's L2. A line in an eviction buffer is not asked for. -/
def State.fetchLine (s : State) (c line : Nat) (dest : BitVec 2) : State :=
  let busy := ((s.region c).evicting.get? line).isSome
  if dest = 0 then
    if s.l1Serves c line false then s
    else
      let s := s.countMiss c
      if busy then s
      else s.post' .rds { src := .l1 c, dst := .die (dieOf c), line := line, requester := .l1 c, state := .i, data := none }
  else if dest = 1 ∧ ((s.die (dieOf c)).l2.get? line).isNone then s.askL2 (dieOf c) line
  else s

/-- PREF translates and asks for the line; whatever would fault or wait drops it (R231). -/
def State.prefetch (s : State) (q : MemReq) (dest : BitVec 2) : State :=
  let root := s.rootOf q.cluster q.tag
  let va := q.va.toNat
  let walked := s.walkedBy q va
  if !s.linesHere (tableLines walked) && (s.specOf q.cluster q.tag).isNone then s.awaitTables q walked
  else match s.translateTo q va false with
  | .error _ => s.endReq q
  | .ok t =>
    let spec := (s.specOf q.cluster q.tag).isSome
    let far := match s.physPlace t.pa with | .remote _ => true | _ => s.inLentPage t.pa
    if spec && (far || !s.linesHere (tableLines walked) || !s.watchFits q.cluster q.tag (s.entryLines q.cluster q.tag t.walked)) then s.endReq q
    else
      let s := ((s.useFar (tableLines walked)).markLeaf q.cluster q.tag root va t false).endReq q
      let line := t.pa / 128
      if far then s
      else if inAperture va then (if dest = 2 then (s.openSlot va (t.pa / 65536)).getD s else s)
      else if leafMt t.leaf ≠ 0 ∨ (s.residentSlot (t.pa / 65536)).isSome then s
      else s.fetchLine q.cluster line dest

/-- The quotas of a request's launch: L1 lines and vault pages (R322, R399). -/
def State.quotas (s : State) (q : MemReq) : Nat × Nat :=
  match (s.ctxAt q.cluster (tagCtx q.tag)).bind s.launchOf with
  | some l => (l.l1quota.toNat, l.vquota.toNat)
  | none => (1024, 256)

/-- The pins of a request's context in every cluster of its rectangle (R322, R323). -/
def State.pinsOf (s : State) (q : MemReq) : List Pin :=
  let clusters := ((s.ctxAt q.cluster (tagCtx q.tag)).map (fun k => k.rect.clusters)).getD [q.cluster]
  ((clusters.map (fun c => (s.region c).pins)).flatten).filter (fun p => p.ctx == tagCtx q.tag)

/-- Whether a context's own pins hold an item already: a page anywhere in the device, a line in the cluster's own L1 (R235). -/
def State.pinned (s : State) (q : MemReq) (page : Bool) (item : Nat) : Bool :=
  (if page then s.pinsOf q else (s.region q.cluster).pins).any
    (fun p => p.ctx == tagCtx q.tag && p.page == page && p.item == item)

/-- Lines that the region's other pins hold in the set of a line (R322). -/
def Region.pinnedWays (r : Region) (item : Nat) : Nat :=
  (((r.pins.filter (fun p => !p.page && p.item % 512 == item % 512 && p.item != item)).map (fun p => p.item)).eraseDups).length

/-- PIN's status for an item: already pinned, no way left, quota passed, or pinned (R235, R322). -/
def State.pinStatus (s : State) (q : MemReq) (page : Bool) (item : Nat) : Nat :=
  let quota := if page then (s.quotas q).2 else (s.quotas q).1
  if s.pinned q page item then 3
  else if !page && 11 ≤ (s.region q.cluster).pinnedWays item then 1
  else if quota < ((s.pinsOf q).filter (fun p => p.page == page)).length + 1 then 2
  else 0

/-- An item is pinned for a context of a cluster; a page's slot is PINNED (R325). -/
def State.addPin (s : State) (c : Nat) (p : Pin) : State :=
  (s.updRegion c (fun r => { r with pins := r.pins ++ [p] })).settlePins

/-- PIN of a line or of a vault page that is reached. -/
def State.pinItem (s : State) (q : MemReq) (page : Bool) (item backing : Nat) : State :=
  let st := s.pinStatus q page item
  let p : Pin := { ctx := tagCtx q.tag, page := page, item := item, backing := backing }
  let s := if st = 0 then s.addPin q.cluster p else s
  s.performed q [.narrow (BitVec.ofNat 32 st)]

/-- UNPIN of an item: 0, or 4 when the context had not pinned it (R235). A page stays PINNED while another context pins it. -/
def State.unpinItem (s : State) (q : MemReq) (page : Bool) (item : Nat) : State :=
  let mine := fun (p : Pin) => p.ctx == tagCtx q.tag && p.page == page && p.item == item
  let clusters := if page then ((s.ctxAt q.cluster (tagCtx q.tag)).map (fun k => k.rect.clusters)).getD [q.cluster]
    else [q.cluster]
  if s.pinned q page item then
    let s := clusters.foldl (fun s c => s.updRegion c (fun r => { r with pins := r.pins.filter (fun p => !mine p) })) s
    s.settlePins.performed q [.narrow 0]
  else s.performed q [.narrow 4]

/-- PIN, UNPIN, FLUSH and INVAL go on (R235, R236). An INVAL that evicts waits while the eviction buffer is full (R332). -/
def State.residencyAccess (s : State) (q : MemReq) (inPort : Bool) : State :=
  let va := q.va.toNat
  let spec := (s.specOf q.cluster q.tag).isSome
  let pauses := match q.kind with | .flush _ => false | _ => true
  if spec && pauses then s.pauseReq q.id
  else match s.reach q va 1 false inPort false with
    | .wait s => s
    | .here pa s =>
      let line := pa / 128
      let c := q.cluster
      match q.kind with
      | .pin page =>
        if page && !inAperture va then s.holdReq q .access va false
        else if page then s.pinItem q true (slotNumber va) (pa / 65536) else s.pinItem q false line 0
      | .unpin page =>
        if page && !inAperture va then s.performed q [.narrow 4]
        else if page then s.unpinItem q true (slotNumber va) else s.unpinItem q false line
      | .flush hbm =>
        let v := s.lineNow line
        let s := (s.saveLine line v).updRegion c (fun r =>
          { r with l1 := updEntry r.l1 line (fun l => if l.state = .m then { l with state := .e } else l) })
        let s := if hbm then { s with dies := s.dies.map (fun (e : Nat × Die) =>
            (e.1, { e.2 with l2 := updEntry e.2.l2 line (fun l => { l with dirty := false }) })) } else s
        s.performed q [.narrow 0]
      | .inval page =>
        if page && inAperture va then
          let o := apertureCluster va
          let s := { s with regions := s.regions.map (fun (e : Nat × Region) =>
            (e.1, { e.2 with pins := e.2.pins.filter (fun p => !(p.page && p.item == slotNumber va)) })) }
          (s.emptySlot o (slotOf va)).performed q [.narrow 0]
        else if 16 ≤ (s.region c).evicting.length ∧ ((s.region c).l1.get? line).isSome then s.retryReq q.id
        else (s.evictLine c line).performed q [.narrow 0]
      | _ => s

/-! ## What comes in over Span (R336, R437) -/

/-- The runs of bytes of an element that lie within one line. -/
def lineParts (va : Nat) (data : List Byte) : List (Nat × List Byte) :=
  let k := 128 - va % 128
  if data.length ≤ k then [(va, data)] else [(va, data.take k), (va + k, data.drop k)]

/-- Where a byte of an incoming copy goes through IMPROOT: physical address, leaf and its entry, or the trap code of a refusal (R437).
PAGE is never serviced here. -/
def State.importWalk (s : State) (va : Nat) : Except Nat Translation :=
  if s.regs.improot = 0 then .error Trap.access.code
  else if 2 ^ 52 ≤ va then .error Trap.page.code
  else if inReserve va then .error Trap.access.code
  else match s.walk s.regs.improot.toNat va with
    | .demand _ => .error Trap.page.code
    | .fault t _ => .error t.code
    | .leaf addr entry level =>
      match leafFault va entry level true with
      | some t => .error t.code
      | none =>
        let pa := entry / 2 ^ 16 % 2 ^ 36 * 65536 + va % 2 ^ pageBits level
        if s.physPlace pa = .reserved then .error Trap.access.code
        else .ok { pa := pa, leaf := entry, level := level, entry := addr, walked := s.walkLines s.regs.improot.toNat va }

/-! ## Starting a request -/

/-- Whether a station's operation is wave-ordered in its region (R219). -/
def State.isOrdered (s : State) (c op : Nat) (r : Rec) : Bool :=
  (0x70 ≤ op && op ≤ 0x76) || (((s.block? c r.block.toNat).map (fun b => decide (0 < b.count))).getD false)

/-- A wave-ordered operation goes to the store buffer at once, so that its station fires again only as R225 allows; after DRAIN has closed
its wave it issues nothing (R212, R220). -/
def State.startOrdered (s : State) (q : MemReq) : State :=
  match s.wave? q.cluster q.block q.tag with
  | some w => if w.drained then s
    else (s.addReq { q with ordered := true, stage := .buffered }).dueNow .wsbArrival { id := q.id }
  | none => (s.addReq { q with ordered := true, stage := .buffered }).dueNow .wsbArrival { id := q.id }

/-- An unordered request leaves its port when the station fires (R232). -/
def State.startUnordered (s : State) (q : MemReq) : State :=
  (s.addReq { q with pred := 0, own := 0, succ := 0 }).dueEvent .pageWalk { id := q.id }

/-- A firing of group 0x7: suppressed by port P it issues as an MNOP that sends nothing (R89, R229). -/
def orderedFiring (op : Nat) (r : Rec) (q : State → MemReq) (s : State) : Host.Outcome State Fault Refusal :=
  firingElse op r (fun t => t.startOrdered (q t)) (fun t => t.startOrdered { q t with kind := .mnop, silent := true }) s

/-- A firing of an operation that is wave-ordered in a block with memory operations and unordered elsewhere (R89, R219). -/
def eitherFiring (op : Nat) (r : Rec) (q : State → MemReq) (s : State) : Host.Outcome State Fault Refusal :=
  if s.isOrdered s.cur.cluster op r then orderedFiring op r q s
  else firing op r (fun t => t.startUnordered (q t)) s

/-- The bytes of a scalar access (R227). -/
def accessSize (r : Rec) : Nat := (laneType r.fmt).w / 8

/-- LD (R227). -/
def execLd (r : Rec) (s : State) : Host.Outcome State Fault Refusal :=
  orderedFiring 0x70 r (fun t => t.stationReq 0x70 r .load (accessSize r)) s

/-- ST (R228). -/
def execSt (r : Rec) (s : State) : Host.Outcome State Fault Refusal :=
  orderedFiring 0x71 r (fun t => t.stationReq 0x71 r .store (accessSize r)) s

/-- LDA (R227). -/
def execLda (r : Rec) (s : State) : Host.Outcome State Fault Refusal :=
  orderedFiring 0x72 r (fun t => t.stationReq 0x72 r .load 128) s

/-- STL (R228). -/
def execStl (r : Rec) (s : State) : Host.Outcome State Fault Refusal :=
  orderedFiring 0x73 r (fun t => { t.stationReq 0x73 r .store 128 with data := wideBytes s.cur.b.bits }) s

/-- MNOP (R229): takes its place in the chain and sends a. -/
def execMnop (r : Rec) (s : State) : Host.Outcome State Fault Refusal :=
  orderedFiring 0x74 r (fun t => { t.stationReq 0x74 r .mnop 0 with b := s.cur.aw }) s

/-- FENCE (R230, R350): its token comes when the ordering its code demands holds. -/
def execFence (r : Rec) (s : State) : Host.Outcome State Fault Refusal :=
  orderedFiring 0x75 r (fun t => t.stationReq 0x75 r .fence 0) s

/-- PREF (R231): sends a at issue. -/
def execPref (r : Rec) (s : State) : Host.Outcome State Fault Refusal :=
  orderedFiring 0x76 r (fun t => { t.stationReq 0x76 r (.pref (r.flags.extractLsb' 0 2)) 0 with b := s.cur.aw }) s

/-- LDU (R232). -/
def execLdu (r : Rec) (s : State) : Host.Outcome State Fault Refusal :=
  firing 0x80 r (fun t => t.startUnordered (t.stationReq 0x80 r .load (accessSize r))) s

/-- STU (R232). -/
def execStu (r : Rec) (s : State) : Host.Outcome State Fault Refusal :=
  firing 0x81 r (fun t => t.startUnordered (t.stationReq 0x81 r .store (accessSize r))) s

/-- LDW (R232). -/
def execLdw (r : Rec) (s : State) : Host.Outcome State Fault Refusal :=
  firing 0x82 r (fun t => t.startUnordered (t.stationReq 0x82 r .load 128)) s

/-- STW (R232). -/
def execStw (r : Rec) (s : State) : Host.Outcome State Fault Refusal :=
  firing 0x83 r (fun t => t.startUnordered { t.stationReq 0x83 r .store 128 with data := wideBytes s.cur.b.bits }) s

/-- PIN (R235). -/
def execPin (r : Rec) (s : State) : Host.Outcome State Fault Refusal :=
  firing 0x84 r (fun t => t.startUnordered (t.stationReq 0x84 r (.pin (r.flags.getLsbD 0)) 0)) s

/-- UNPIN (R235). -/
def execUnpin (r : Rec) (s : State) : Host.Outcome State Fault Refusal :=
  firing 0x85 r (fun t => t.startUnordered (t.stationReq 0x85 r (.unpin (r.flags.getLsbD 0)) 0)) s

/-- FLUSH (R236). -/
def execFlush (r : Rec) (s : State) : Host.Outcome State Fault Refusal :=
  firing 0x86 r (fun t => t.startUnordered (t.stationReq 0x86 r (.flush (r.flags.getLsbD 0)) 0)) s

/-- INVAL (R236). -/
def execInval (r : Rec) (s : State) : Host.Outcome State Fault Refusal :=
  firing 0x87 r (fun t => t.startUnordered (t.stationReq 0x87 r (.inval (r.flags.getLsbD 0)) 0)) s

/-- WSB_ARRIVAL (R221, R225): an operation reaches the wave store buffer. One whose wave DRAIN has closed is passed over. -/
def execWsbArrival (s : State) : Host.Outcome State Fault Refusal :=
  done (match s.req? s.cur.id with
    | some q =>
      match s.wave? q.cluster q.block q.tag with
      | some w => if w.drained then s.endReq q else s.arriveBuffer q
      | none => s.arriveBuffer q
    | none => s)

/-- Whether a request's replies keep the order of its station's firings: an ordered channel of group 0x8 (R232, R233). -/
def State.inReplyOrder (s : State) (q : MemReq) : Bool :=
  let op := s.opAt q.cluster q.station
  !(0x80 ≤ op && op ≤ 0x83 && q.flags.getLsbD 0)
    || s.reqs.all (fun o => !(o.cluster == q.cluster && o.station == q.station && decide (o.id < q.id)))

/-- A request is over with its reply: one value to both targets, or one to each (R155, R217). It counts as outstanding until its tokens
are consumed. -/
def State.sendReply (s : State) (q : MemReq) : State :=
  match q.result with
  | [v] => (s.dropReq q.id).answerTo q.cluster q.station q.id q.tag v v
  | [v, w] => (s.dropReq q.id).answerTo q.cluster q.station q.id q.tag v w
  | _ => s.endReq q

/-- Whether the context of a request has been discarded; a request from no cluster has none. -/
def State.isKilled (s : State) (q : MemReq) : Bool :=
  if q.cluster = 64 then false else match s.ctxAt q.cluster (tagCtx q.tag) with | some k => k.killed | none => true

/-- A line that the device has asked for comes from the new home of its page (R338); who asked looks again, and asks again where it has not
come. -/
def State.takeLine (s : State) (q : MemReq) : State :=
  let t := s.dropReq q.id
  if s.cur.word = 0 then t.setFar (q.va.toNat / 128) s.cur.access.data else t

/-- A part of an incoming element that was passed on is refused: the rest of the element is not written, and its sender has the refusal
(R437). -/
def State.failImport (s : State) (q : MemReq) (code : Nat) : State :=
  { s with agenda := s.agenda.filter (fun a => match a with
    | .event .remoteCopyElement x => !(x.hasC && x.index == q.id)
    | _ => true) }.answer q.aux.toNat [] code

/-- The values of a reply that another device has sent: one word, or two. -/
def farValues (data : List Byte) : List Value :=
  (List.range (max 1 (data.length / 4))).map (fun i => Value.narrow (BitVec.ofNat 32 (natOfBytes ((data.drop (4 * i)).take 4))))

/-- MEMORY_REPLY (R217, R233): a performed request's reply goes to its targets; a discarded context's is dropped
(R419). An access of another device's memory that has come back goes on with the bytes it brings, or raises the trap whose code
`word` holds (R246, R329, R337). Of the requests from no cluster, the
dispatcher's own store (a SIGNAL) completes its packet (R404), a write of the device's own that was forwarded is done (R441), a line that it
asked for is here (R338), and an access of another
device has its answer (R337). An atomic with NR sends no
reply token (R237). -/
def execMemoryReply (s : State) : Host.Outcome State Fault Refusal :=
  done (match s.req? s.cur.id with
    | none => s
    | some q =>
      let away := s.spanReqs.any (fun e => e.id == q.id)
      let s : State := { s with spanReqs := s.spanReqs.filter (fun e => e.id != q.id) }
      if q.cluster = 64 then
        (if q.station < 64 then (s.dropReq q.id).completePacket q.station .ok { evtype := 2 } false
         else if q.station = 64 then s.dropReq q.id
         else if q.station = 67 then s.takeLine q
         else if q.station = 68 then (if s.cur.word = 0 then s.dropReq q.id else (s.dropReq q.id).failImport q s.cur.word.toNat)
         else (s.dropReq q.id).answer q.aux.toNat
           (if away then s.cur.access.data else (q.result.map (fun v => bytesOfNat 4 v.word.toNat)).flatten) s.cur.word.toNat)
      else
      let s := if away ∧ s.cur.word = 0 then s.countEgress q else s
      if s.isKilled q then s.endReq q
      else if q.stage = .performed then
        if s.inReplyOrder q then s.sendReply q else s.dueEvent .memoryReply { id := q.id }
      else if away then
        let data := s.cur.access.data
        let copy := match q.kind with | .copyRead k | .copyWrite k => some k | _ => none
        if s.cur.word ≠ 0 ∧ copy.isSome then
          s.dueEvent .copyFault { cluster := q.cluster, index := copy.getD 0, id := q.id, word := s.cur.word }
        else if s.cur.word ≠ 0 then
          ((s.endReq q).takeTrapAt (Trap.ofCode s.cur.word.toNat) q.cluster q.station q.tag q.a q.b q.va.toNat q.agen
            (q.kindCode false) [])
        else match q.kind with
        | .atomic op =>
          if op ≠ .cas ∧ q.flags.getLsbD 0 then s.performed q [] else s.performed q (farValues data)
        | .phaser _ | .quarry _ => s.performed q (farValues data)
        | _ => (s.updReq q.id (fun q => { q with stage := .issued, fetched := some data })).retryReq q.id
      else s)

end Sys2Proof.Machine
end

