-- ==== Sys2Proof/Machine/Number.lean ====
section
/-! DEFINITION. Floating formats, exact values, and the one rounding of an operation (R134 to R149): decoding and encoding,
the rounding modes, conversions with their saturation, Q4 and E8M0 blocks, and the exact sums, products, quotients and
roots of IEEE 754-2019. -/

namespace Sys2Proof

/-! ## Formats (R78, R134, R135) -/

/-- A floating format: total, exponent and mantissa bits, and bias. -/
structure FloatFormat where
  bits : Nat
  exp  : Nat
  man  : Nat
  bias : Nat
  deriving DecidableEq, Repr

/-- The format of a code of R78; codes 0x6 and above name no format of R134. -/
def floatFormat (code : Nat) : FloatFormat :=
  match code with
  | 0 => { bits := 32, exp := 8, man := 23, bias := 127 }
  | 1 => { bits := 16, exp := 5, man := 10, bias := 15 }
  | 2 => { bits := 16, exp := 8, man := 7, bias := 127 }
  | 3 => { bits := 64, exp := 11, man := 52, bias := 1023 }
  | 4 => { bits := 8, exp := 4, man := 3, bias := 7 }
  | _ => { bits := 8, exp := 5, man := 2, bias := 15 }

/-- Whether a format is an FP8 format, whose conversions saturate (R147). -/
def isFp8 (code : Nat) : Bool := code == 4 || code == 5

/-- The encoding of the largest finite magnitude (R134). -/
def maxFinite (code : Nat) : Nat :=
  let f := floatFormat code
  if code = 4 then 0x7E else (2 ^ f.exp - 1) * 2 ^ f.man - 1

/-- The encoding of infinity's magnitude (R135); ±448 in E4M3, which has none. -/
def infinityBits (code : Nat) : Nat :=
  let f := floatFormat code
  if code = 4 then 0x7E else (2 ^ f.exp - 1) * 2 ^ f.man

/-- The canonical NaN (R135, R136). -/
def canonicalNaN (code : Nat) : Nat :=
  match code with
  | 0 => 0x7FC00000 | 1 => 0x7E00 | 2 => 0x7FC0 | 3 => 0x7FF8000000000000 | 4 => 0x7F | _ => 0x7E

/-- The sign bit of a format in place. -/
def signBit (code : Nat) (neg : Bool) : Nat := if neg then 2 ^ ((floatFormat code).bits - 1) else 0

/-! ## Exact values -/

/-- An exact value: a NaN, an infinity, or a finite value in magnitude m × 2^e, where `sticky` says that the magnitude lies
strictly between m × 2^e and (m + 1) × 2^e. A zero keeps its sign (R136). -/
inductive Exact where
  | nan
  | inf (neg : Bool)
  | fin (neg : Bool) (m : Nat) (e : Int) (sticky : Bool)
  deriving DecidableEq, Repr

/-- A signed zero. -/
def Exact.zero (neg : Bool) : Exact := .fin neg 0 0 false

/-- Whether a value is zero. -/
def Exact.isZero : Exact → Bool
  | .fin _ 0 _ false => true
  | _ => false

/-- The sign of a value. -/
def Exact.neg? : Exact → Bool
  | .nan => false
  | .inf n => n
  | .fin n _ _ _ => n

/-- The value with its sign changed. -/
def Exact.negate : Exact → Exact
  | .nan => .nan
  | .inf n => .inf (!n)
  | .fin n m e k => .fin (!n) m e k

/-- The value of an encoding (R134, R135). -/
def decodeFloat (code bits : Nat) : Exact :=
  let f := floatFormat code
  let neg := bits / 2 ^ (f.bits - 1) % 2 == 1
  let ex := bits / 2 ^ f.man % 2 ^ f.exp
  let ma := bits % 2 ^ f.man
  if code = 4 ∧ ex = 15 ∧ ma = 7 then .nan
  else if code ≠ 4 ∧ ex = 2 ^ f.exp - 1 then (if ma = 0 then .inf neg else .nan)
  else if ex = 0 then .fin neg ma (1 - (f.bias : Int) - f.man) false
  else .fin neg (2 ^ f.man + ma) ((ex : Int) - f.bias - f.man) false

/-- The number of bits of a natural number. -/
def natBits (n : Nat) : Nat := if n = 0 then 0 else Nat.log2 n + 1

/-- m × 2^e < n × 2^k, exactly. -/
def magLess (m : Nat) (e : Int) (n : Nat) (k : Int) : Bool :=
  let z := min e k
  decide (m * 2 ^ (e - z).toNat < n * 2 ^ (k - z).toNat)

/-! ## Rounding (R143, R144) -/

/-- Whether a discarded part makes the magnitude go up. `rem` of 2^shift is discarded, with a further positive part below it
where `sticky`; `odd` is the low bit kept; `draw` is the 16-bit draw of .rsr. -/
def roundsUp (mode : Nat) (neg odd : Bool) (rem shift : Nat) (sticky : Bool) (draw : Nat) : Bool :=
  let half := 2 ^ shift
  let exact := rem == 0 && !sticky
  match mode with
  | 0 => decide (2 * rem > half) || (decide (2 * rem = half) && (sticky || odd))
  | 1 => false
  | 2 => !exact && neg
  | 3 => !exact && !neg
  | _ => decide (65536 ≤ rem * 65536 / 2 ^ shift + draw)

/-- A magnitude m × 2^e rounded to a multiple of 2^u: the multiple. -/
def roundAt (mode : Nat) (neg : Bool) (m : Nat) (e : Int) (sticky : Bool) (u : Int) (draw : Nat) : Nat :=
  if u ≤ e then m * 2 ^ (e - u).toNat + (if roundsUp mode neg (m * 2 ^ (e - u).toNat % 2 == 1) 0 0 sticky draw then 1 else 0)
  else
    let shift := (u - e).toNat
    let q := m / 2 ^ shift
    q + (if roundsUp mode neg (q % 2 == 1) (m % 2 ^ shift) shift sticky draw then 1 else 0)

/-- The exponent of the last place that a magnitude m × 2^e is rounded at in a format. -/
def lastPlace (f : FloatFormat) (m : Nat) (e : Int) : Int :=
  max ((natBits m : Int) - 1 + e - f.man) (1 - (f.bias : Int) - f.man)

/-- The overflow result of R143 in the IEEE formats. -/
def overflowBits (code mode : Nat) (neg : Bool) : Nat :=
  if mode = 1 ∨ (mode = 2 ∧ ¬ neg) ∨ (mode = 3 ∧ neg) then maxFinite code else infinityBits code

/-- The encoding without sign of a magnitude rounded to a format, before overflow is looked at: it may pass the largest
finite encoding. -/
def roundedField (code mode : Nat) (neg : Bool) (m : Nat) (e : Int) (sticky : Bool) (draw : Nat) : Nat :=
  let f := floatFormat code
  let u := lastPlace f m e
  let q := roundAt mode neg m e sticky u draw
  let low := (u + f.man + f.bias - 1).toNat
  if q < 2 ^ f.man then q else low * 2 ^ f.man + q

/-- One rounding of an exact value to a format (R136, R138, R143): the overflow column in the IEEE formats, ±Max in the FP8
formats, and with `sat` the largest finite value in place of infinity (R150). -/
def roundTo (code mode : Nat) (sat : Bool) (draw : Nat) : Exact → Nat
  | .nan => canonicalNaN code
  | .inf n => signBit code n + infinityBits code
  | .fin n m e k =>
    if m = 0 ∧ !k then signBit code n
    else
      let v := roundedField code mode n m e k draw
      signBit code n +
        (if v ≤ maxFinite code then v
         else if isFp8 code || sat then maxFinite code
         else overflowBits code mode n)

/-- The exact value of the largest finite magnitude of a format. -/
def maxExact (code : Nat) : Nat × Int :=
  match decodeFloat code (maxFinite code) with
  | .fin _ m e _ => (m, e)
  | _ => (0, 0)

/-- A conversion to a floating format (R147): the encoding, and whether the element saturated. A finite source above Max
gives the overflow column of R143, or ±Max in an FP8 format. -/
def convertTo (code mode draw : Nat) : Exact → Nat × Bool
  | .nan => (canonicalNaN code, false)
  | .inf n => (signBit code n + infinityBits code, code == 4)
  | .fin n m e k =>
    let top := maxExact code
    if magLess top.1 top.2 m e || (decide (magLess m e top.1 top.2 = false) && k) then
      (signBit code n + (if isFp8 code then maxFinite code else overflowBits code mode n), true)
    else (roundTo code mode false draw (.fin n m e k), false)

/-- A conversion to an integer type (R147, R202): rounded to an integral value, then clamped; 0 for NaN. -/
def convertToInt (natural : Bool) (w mode : Nat) : Exact → Int
  | .nan => 0
  | .inf n => saturate natural w (if n then -(2 ^ 70) else 2 ^ 70)
  | .fin n m e k =>
    let q := (roundAt mode n m e k 0 0 : Int)
    saturate natural w (if n then -q else q)

/-! ## Exact arithmetic (IEEE 754-2019) -/

/-- The product. -/
def Exact.mul : Exact → Exact → Exact
  | .nan, _ | _, .nan => .nan
  | .inf n, y => if y.isZero then .nan else .inf (n != y.neg?)
  | x, .inf n => if x.isZero then .nan else .inf (x.neg? != n)
  | .fin n m e _, .fin n' m' e' _ => .fin (n != n') (m * m') (e + e') false

/-- A signed sum of magnitudes at a common exponent. -/
def signedMag (n : Bool) (m : Nat) (e z : Int) : Int :=
  let v := ((m * 2 ^ (e - z).toNat : Nat) : Int)
  if n then -v else v

/-- The sum. An exact zero from opposite signs is +0, or −0 under .rdn (R136). -/
def Exact.add (mode : Nat) : Exact → Exact → Exact
  | .nan, _ | _, .nan => .nan
  | .inf n, .inf n' => if n = n' then .inf n else .nan
  | .inf n, _ => .inf n
  | _, .inf n => .inf n
  | .fin n m e _, .fin n' m' e' _ =>
    if m = 0 ∧ m' = 0 then (if n = n' then .zero n else .zero (mode == 2))
    else
      let z := min e e'
      let v := signedMag n m e z + signedMag n' m' e' z
      if v = 0 then .zero (mode == 2) else .fin (decide (v < 0)) v.natAbs z false

/-- The quotient (R137: non-zero over zero is an infinity), to 130 bits and whether more follows. -/
def Exact.div : Exact → Exact → Exact
  | .nan, _ | _, .nan => .nan
  | .inf n, y => match y with | .inf _ => .nan | _ => .inf (n != y.neg?)
  | x, .inf n => .zero (x.neg? != n)
  | .fin n m e _, .fin n' m' e' _ =>
    if m' = 0 then (if m = 0 then .nan else .inf (n != n'))
    else if m = 0 then .zero (n != n')
    else
      let k := natBits m' + 130
      let a := m * 2 ^ k
      .fin (n != n') (a / m') (e - e' - k) (a % m' != 0)

/-- The largest root at most n, bit by bit from a power of two down: each pass tries one bit. -/
def rootBits : Nat → Nat → Nat → Nat
  | 0, _, r => r
  | k + 1, n, r =>
    let c := r + 2 ^ k
    rootBits k n (if c * c ≤ n then c else r)

/-- The integer square root. -/
def isqrt (n : Nat) : Nat := rootBits (natBits n / 2 + 1) n 0

/-- The square root (R196): −0 of −0, NaN below zero. -/
def Exact.sqrt : Exact → Exact
  | .nan => .nan
  | .inf n => if n then .nan else .inf false
  | .fin n m e _ =>
    if m = 0 then .zero n
    else if n then .nan
    else
      let k : Nat := 260 + (if e % 2 = 0 then 0 else 1)
      let a := m * 2 ^ k
      let q := isqrt a
      .fin false q ((e - k) / 2) (q * q != a)

/-- The reciprocal (R196). -/
def Exact.recip (x : Exact) : Exact := Exact.div (.fin false 1 0 false) x

/-- The reciprocal square root (R196): ±infinity of ±0, NaN below zero. -/
def Exact.rsqrt : Exact → Exact
  | .nan => .nan
  | .inf n => if n then .nan else .zero false
  | .fin n m e _ =>
    if m = 0 then .inf n
    else if n then .nan
    else
      -- 1 / sqrt(m × 2^e) with e even: sqrt(2^(2k) / m) × 2^(−k − e/2)
      let m' := if e % 2 = 0 then m else 2 * m
      let e' := if e % 2 = 0 then e else e - 1
      let k := natBits m' + 140
      let q := isqrt (2 ^ (2 * k) / m')
      .fin false q (-(k : Int) - e' / 2) (q * q * m' != 2 ^ (2 * k))

/-- Whether x < y, for finite values and infinities: −0 below +0 where `zeros` (R139), equal otherwise. -/
def Exact.less (zeros : Bool) : Exact → Exact → Bool
  | .nan, _ | _, .nan => false
  | .inf n, y => n && (match y with | .inf k => !k | _ => true)
  | _, .inf k => !k
  | .fin n m e _, .fin n' m' e' _ =>
    if m = 0 ∧ m' = 0 then zeros && n && !n'
    else
      let z := min e e'
      decide (signedMag n m e z < signedMag n' m' e' z)

/-- minimumNumber and maximumNumber (R139). -/
def Exact.minimum (x y : Exact) : Exact :=
  match x, y with
  | .nan, y => y
  | x, .nan => x
  | x, y => if y.less true x then y else x

def Exact.maximum (x y : Exact) : Exact :=
  match x, y with
  | .nan, y => y
  | x, .nan => x
  | x, y => if x.less true y then y else x

/-- The relation code of a compare (R198): −0 and +0 are equal. -/
def Exact.relation (x y : Exact) : Nat :=
  relationCode (x == .nan || y == .nan) (x.less false y) (!(x.less false y) && !(y.less false x))

/-- The value rounded to an integral value under a mode: zero keeps its sign (R203). -/
def Exact.integral (mode : Nat) : Exact → Exact
  | .fin n m e k => .fin n (roundAt mode n m e k 0 0) 0 false
  | x => x

/-- The one-hot class of an encoding (R199). -/
def classMask (code bits : Nat) : Nat :=
  let f := floatFormat code
  match decodeFloat code bits with
  | .nan => 2 ^ 8
  | .inf n => if n then 1 else 2 ^ 7
  | .fin n m _ _ =>
    if m = 0 then (if n then 2 ^ 3 else 2 ^ 4)
    else if m < 2 ^ f.man then (if n then 2 ^ 2 else 2 ^ 5)
    else if n then 2 ^ 1 else 2 ^ 6

/-! ## Block formats (R140 to R142, R148) -/

/-- The code magnitudes of a Q4 type in eighths, by index: types 0b01 to 0b11 (R141). -/
def q4Magnitude (type idx : Nat) : Nat :=
  if type = 1 then [0, 4, 8, 12, 16, 24, 32, 48].getD idx 0
  else if type = 2 then (if idx = 0 then 0 else 2 ^ (idx - 1))
  else [0, 8, 16, 24, 32, 48, 64, 96].getD idx 0

/-- The value of a Q4 element under its scale byte (R140, R141). -/
def q4Value (nibble scale : Nat) : Exact :=
  let type := scale / 64 % 4
  let ex := scale % 64
  if ex = 63 then .nan
  else if type = 0 then
    let v := toSigned 4 (nibble % 16)
    .fin (decide (v < 0)) (8 * v.natAbs) ((ex : Int) - 35) false
  else .fin (nibble / 8 % 2 == 1) (q4Magnitude type (nibble % 8)) ((ex : Int) - 35) false

/-- The magnitudes a Q4 type can hold for a sign, in eighths, rising. -/
def q4Table (type : Nat) (neg : Bool) : List Nat :=
  if type = 0 then (List.range (if neg then 9 else 8)).map (8 * ·)
  else (List.range 8).map (q4Magnitude type)

/-- The index of the last entry at most num / den, in a rising list. -/
def lastAtMost (num den : Nat) : List Nat → Nat → Nat
  | [], i => i - 1
  | t :: rest, i => if t * den ≤ num then lastAtMost num den rest (i + 1) else i - 1

/-- A value rounded to a Q4 element under a scale byte (R147, R148): the nibble, and whether the element saturated. Max is
the largest code value of the type for both signs, so a type 0b00 source below −7 × scale gives −8, saturated. A NaN makes
the whole block a NaN block, which the caller writes. -/
def q4Code (mode draw scale : Nat) : Exact → Nat × Bool
  | .nan => (0, false)
  | x =>
    let type := scale / 64 % 4
    let ex := scale % 64
    let n := x.neg?
    let table := q4Table type n
    let top := table.length - 1
    let max := table.getD 7 0
    let pick : Nat × Bool :=
      match x with
      | .fin _ m e k =>
        let f := e - ex + 35
        let num := m * 2 ^ f.toNat
        let den := 2 ^ (-f).toNat
        if max * den < num || (max * den == num && k) then (top, true)
        else
          let i := lastAtMost num den table 0
          let lo := num - table.getD i 0 * den
          let span := (table.getD (i + 1) 0 - table.getD i 0) * den
          if lo = 0 ∧ !k then (i, false)
          else
            let up := match mode with
              | 0 => decide (span < 2 * lo) || (decide (span = 2 * lo) && (k || i % 2 == 1))
              | 1 => false
              | 2 => n
              | 3 => !n
              | _ => decide (65536 ≤ lo * 65536 / span + draw)
            (if up then i + 1 else i, false)
      | _ => (top, true)
    let nibble := if type = 0 then (if n then (16 - pick.1) % 16 else pick.1) else (if n then 8 else 0) + pick.1
    (nibble, pick.2)

/-- An element under an E8M0 scale byte (R142). -/
def e8m0Scaled (x : Exact) (e : Nat) : Exact :=
  if e = 0xFF then .nan
  else match x with
    | .fin n m k st => .fin n m (k + e - 127) st
    | y => y

/-! ## The stochastic register (R144) -/

/-- One step of a VE's register. -/
def lfsrStep (s : Word) : Word := if s.getLsbD 0 then (s >>> 1) ^^^ 0x80200003#32 else s >>> 1

/-- The draw of a stepped register. -/
def lfsrDraw (s : Word) : Nat := s.toNat % 65536

/-! ## The chunked dot product (R150) -/

/-- The exact sum of a chunk: NaN for a NaN product or infinities of both signs, −0 only where every product is −0. -/
def chunkSum (products : List Exact) : Exact :=
  let total := products.foldl (Exact.add 0) (.zero true)
  match total with
  | .fin _ 0 _ _ => .zero (products.all (fun p => p.neg?) && !products.isEmpty)
  | x => x

/-- The chunk length of a format (R150). -/
def chunkLength (code : Nat) : Nat :=
  if code = 3 then 4 else if code = 0 then 8 else if code = 1 ∨ code = 2 then 16 else 32

/-- The additions of R150 into an accumulator of a format, chunk by chunk. The fuel is the number of products. -/
def chunkedSum (code len : Nat) (sat : Bool) : Nat → List Exact → Nat → Nat
  | 0, _, acc => acc
  | _, [], acc => acc
  | fuel + 1, ps, acc =>
    let s := chunkSum (ps.take len)
    let x := Exact.add 0 (decodeFloat code acc) s
    let v := roundTo code 0 sat 0 x
    chunkedSum code len sat fuel (ps.drop len) v

end Sys2Proof
end

