-- ==== Sys2Proof/Machine/Atomic.lean ====
section
/-! DEFINITION. Atomics and phasers (0x90 to 0x9A, 0xA6 to 0xAA: R237 to R241, R247 to R250) and their step at the home. -/

namespace Sys2Proof.Machine

open Sys2Proof

/-! ## Atomics (R237 to R241) -/

/-- The bytes of an atomic's location: 2 for a scalar 16-bit AFADD, 4 otherwise (R237, R240). -/
def atomicSize (q : MemReq) : Nat :=
  match q.kind with
  | .atomic .fadd => if q.fmt ≠ 0 ∧ !q.flags.getLsbD 1 then 2 else 4
  | _ => 4

/-- AFADD's new value: each lane rounded once under .rne (R240). -/
def faddWord (q : MemReq) (old : Word) : Word :=
  let code := q.fmt.toNat
  let w := (floatFormat code).bits
  BitVec.ofNat 32 (joinLanes w ((List.range (if q.flags.getLsbD 1 then 2 else 1)).map (fun i =>
    roundTo code 0 false 0 ((decodeFloat code (lane w old i)).add 0 (decodeFloat code (lane w q.b i))))))

/-- The new value of an atomic; none where ACAS fails (R237 to R240). -/
def atomicNew (op : AtomicOp) (q : MemReq) (old : Word) : Option Word :=
  match op with
  | .add => some (old + q.b)
  | .mins => some (if q.b.slt old then q.b else old)
  | .maxs => some (if old.slt q.b then q.b else old)
  | .minn => some (if q.b.ult old then q.b else old)
  | .maxn => some (if old.ult q.b then q.b else old)
  | .and => some (old &&& q.b)
  | .or => some (old ||| q.b)
  | .xor => some (old ^^^ q.b)
  | .xchg => some q.b
  | .cas => if old = q.b then some q.c else none
  | .fadd => some (faddWord q old)

/-- The reply of an atomic: nothing with NR, old and the success of ACAS, old otherwise (R237, R239). -/
def atomicReply (op : AtomicOp) (q : MemReq) (old : Word) (wrote : Bool) : List Value :=
  if op = .cas then [.narrow old, .narrow (if wrote then 1 else 0)]
  else if q.flags.getLsbD 0 then [] else [.narrow old]

/-- An atomic at its location, as one step (R238). -/
def State.atomicAt (s : State) (op : AtomicOp) (q : MemReq) (pa : Nat) : State × List Value :=
  let n := atomicSize q
  let s := s.watch q.cluster q.tag pa n
  let old : Word := BitVec.ofNat 32 (natOfBytes (s.bytesFor q.cluster q.tag pa n))
  let seen := (s.replyFor pa old) &&& (if n = 2 then 0xFFFF else 0xFFFFFFFF)
  match atomicNew op q old with
  | some v => (s.writeFor q.cluster q.tag pa (bytesOfNat n v.toNat), atomicReply op q seen true)
  | none => (s, atomicReply op q seen false)

/-! ## Phasers (R247 to R250) -/

/-- A word of a phaser line as a context sees it. -/
def State.phaserWord (s : State) (q : MemReq) (pa i : Nat) : Nat :=
  natOfBytes (s.bytesFor q.cluster q.tag (pa + 4 * i) 4)

/-- Whether a group word names an aligned sub-rectangle of a rectangle that contains a cluster (R49, R248). -/
def groupOk (k : Rect) (c : Nat) (w : BitVec 10) : Bool :=
  let lw := bits w.toNat 7 6
  let lh := bits w.toNat 9 8
  let rx := bits w.toNat 2 0
  let ry := bits w.toNat 5 3
  let sub : Rect := { x0 := k.x0 + rx, y0 := k.y0 + ry, lw := lw, lh := lh }
  decide (lw ≤ k.lw) && decide (lh ≤ k.lh) && rx % 2 ^ lw == 0 && ry % 2 ^ lh == 0
    && decide (rx + 2 ^ lw ≤ 2 ^ k.lw) && decide (ry + 2 ^ lh ≤ 2 ^ k.lh) && sub.contains c

/-- The rectangle of the context of a tag; the cluster alone where it has none. -/
def State.rectOf (s : State) (c : Nat) (g : Word) : Rect :=
  ((s.ctxAt c (tagCtx g)).map (fun k => k.rect)).getD { x0 := c % 8, y0 := c / 8, lw := 0, lh := 0 }

/-- The words PHASE, GROUP, REG and PEND of a phaser after an operation, or its trap (R249). PEND is 16 bits wide (R9, R247). -/
def phaserStep (op : PhaserOp) (b phase group reg pend : Nat) (groupFits : Bool) : Except Trap (Nat × Nat × Nat × Nat) :=
  let n := b % 65536
  let turn := fun (g r p : Nat) => if p = 0 ∧ 0 < r then ((phase + 1) % 2 ^ 32, g, r, r) else (phase, g, r, p)
  match op with
  | .reg =>
    if n = 0 ∨ 2 ^ 26 ≤ b ∨ 65535 < reg + n then .error .illegal
    else if !groupFits ∨ (0 < reg ∧ bits b 25 16 ≠ group) then .error .access
    else .ok (turn (bits b 25 16) (reg + n) ((pend + n) % 65536))
  | .sig => if n = 0 ∨ 65536 ≤ b ∨ pend < n then .error .illegal else .ok (turn group reg (pend - n))
  | .drop => if n = 0 ∨ 65536 ≤ b ∨ pend < n ∨ reg < n then .error .illegal else .ok (turn group (reg - n) (pend - n))
  | _ => .ok (phase, group, reg, pend)

/-- Whether a phase is later than b (R247, R250). -/
def phaseLater (phase : Nat) (b : Word) : Bool :=
  let d := (BitVec.ofNat 32 phase - b).toNat
  decide (0 < d) && decide (d < 2 ^ 31)

/-- The waiting PWAITs of a line whose phase has come are answered (R250). -/
def State.wakePhaser (s : State) (line : Nat) : State :=
  (s.pwaits.filter (fun w => w.1 == line)).foldl (fun s w =>
    match s.req? w.2.1 with
    | some q =>
      let phase := s.phaserWord q (line * 128) 0
      if phaseLater phase w.2.2 then
        let v := [Value.narrow (s.replyFor (line * 128) (BitVec.ofNat 32 phase))]
        { s with pwaits := s.pwaits.filter (fun o => o.2.1 != q.id) }.homeReply q v
      else s
    | none => s) s

/-- PWAITs that wait at the home slice of a line (R250). -/
def State.phaserWaits (s : State) (line : Nat) : Nat := (s.pwaits.filter (fun w => sliceOf w.1 == sliceOf line)).length

/-- A PWAIT whose phase has not come waits at the home, or at its port while the list there is full (R250); a freeze withdraws it there
(R375). One of another device comes again from where it has arrived, and one of a discarded context does not wait (R396, R419). How many the
list holds is an opaque constant (log 122). -/
def State.enqueueWait (s : State) (q : MemReq) (pa : Nat) : State :=
  if s.isKilled q then s.endReq q
  else if s.phaserWaits (pa / 128) < Config.phaserWaiters then { s with pwaits := s.pwaits ++ [(pa / 128, q.id, q.b)] }
  else if q.cluster = 64 then s.dueEvent .atomicAtHome { id := q.id, index := pa }
  else if (s.region q.cluster).halted then s.updReq q.id (fun q => { q with stage := .withdrawn })
  else (s.updReq q.id (fun q => { q with stage := .issued })).retryReq q.id

/-- A phaser operation at the home of its line (R249, R250): the state, and its reply where it has one already. -/
def State.phaserAt (s : State) (op : PhaserOp) (q : MemReq) (pa : Nat) : State × Option (List Value) :=
  let s := s.watch q.cluster q.tag pa 12
  let phase := s.phaserWord q pa 0
  let w1 := s.phaserWord q pa 1
  let w2 := s.phaserWord q pa 2
  match op with
  | .wait =>
    if phaseLater phase q.b then (s, some [.narrow (s.replyFor pa (BitVec.ofNat 32 phase))])
    else (s.enqueueWait q pa, none)
  | .stat =>
    (s, some [.narrow (s.replyFor pa (BitVec.ofNat 32 phase)),
              .narrow (s.replyFor (pa + 4) (BitVec.ofNat 32 (w2 % 65536 * 65536 + w1 % 65536)))])
  | _ =>
    let fits := q.cluster == 64 || groupOk (s.rectOf q.cluster q.tag) q.cluster (BitVec.ofNat 10 (bits q.b.toNat 25 16))
    match phaserStep op q.b.toNat phase (bits w1 25 16) (w1 % 65536) (w2 % 65536) fits with
    | .error t =>
      if q.cluster = 64 then ((s.dropReq q.id).answer q.aux.toNat [] t.code, none)
      else ((s.endReq q).takeTrapAt t q.cluster q.station q.tag q.a q.b q.va.toNat 0 1 [], none)
    | .ok (p, g, r, n) =>
      let words := bytesOfNat 4 p ++ bytesOfNat 4 (g * 65536 + r) ++ bytesOfNat 4 n
      ((s.writeFor q.cluster q.tag pa words).wakePhaser (pa / 128), some [.narrow (s.replyFor pa (BitVec.ofNat 32 p))])

/-- Whether a phaser operation of a speculation finds room at the home for what it reads and writes (R386, R387). -/
def State.phaserFits (s : State) (op : PhaserOp) (q : MemReq) (pa : Nat) : Bool :=
  s.watchFits q.cluster q.tag (s.readLines q.cluster q.tag pa 12)
    && (op == .wait || op == .stat || s.landingFits q.cluster q.tag pa 12)

/-! ## At the home (R241) -/

/-- Whether a PREG is for a line of another device, or of a page in hand-over, with a group that its own cluster does not fit: the sender raises ACCESS, where PREG's
operand is no ILLEGAL in itself (R248, R249). -/
def State.farGroupBad (s : State) (q : MemReq) : Bool :=
  q.kind == .phaser .reg && decide (0 < q.b.toNat % 65536) && decide (q.b.toNat < 2 ^ 26)
    && !groupOk (s.rectOf q.cluster q.tag) q.cluster (BitVec.ofNat 10 (bits q.b.toNat 25 16))
    && s.linesHere (tableLines (s.walkedBy q q.va.toNat))
    && (match s.translate q.cluster q.tag (s.rootOf q.cluster q.tag) q.va.toNat true with
      | .ok t => (match s.physPlace t.pa with | .remote _ => true | _ => s.inLentPage t.pa)
      | .error _ => false)

/-- An atomic or phaser request goes on: inside the address space (R214), aligned, not in a speculation where R388 holds it, and then to
its home (R237, R247). -/
def State.homeAccess (s : State) (q : MemReq) (inPort : Bool) : State :=
  let size := match q.kind with | .atomic _ => atomicSize q | _ => 128
  let pauses := match q.kind with | .atomic _ => true | _ => false
  if 2 ^ 52 ≤ q.va.toNat then s.holdReq q .page q.va.toNat false
  else if s.farGroupBad q then (s.endReq q).takeTrapAt .access q.cluster q.station q.tag q.a q.b q.va.toNat 0 1 []
  else if q.va.toNat % size ≠ 0 then s.holdReq q .align q.va.toNat false
  else if pauses && (s.specOf q.cluster q.tag).isSome then s.pauseReq q.id
  else
    let write := match q.kind with | .phaser .wait | .phaser .stat => false | _ => true
    match s.reach q q.va.toNat size write inPort true with
    | .wait s => s
    | .here pa s =>
      ((s.forget q).updReq q.id (fun q => { q with stage := .away })).dueEvent .atomicAtHome { id := q.id, index := pa }

/-- ATOMIC_AT_HOME (R238, R241, R249): a request acts at its home once; a replay of one already applied gets the kept reply. An
event without a request looks at the PWAITs of a line again. A request for a page in hand-over goes back to wait and be forwarded
(R441), and one of a speculation that finds no room at the home is held at its port (R388). -/
def execAtomicAtHome (s : State) : Host.Outcome State Fault Refusal :=
  done (match s.req? s.cur.id with
    | none => s.wakePhaser (s.cur.index / 128)
    | some q =>
      match s.kept q with
      | some v => s.performed q v
      | none =>
        if s.inLentPage s.cur.index then (s.updReq q.id (fun q => { q with stage := .issued })).retryReq q.id
        else match q.kind with
        | .atomic op =>
          let x := s.atomicAt op q s.cur.index
          x.1.homeReply q x.2
        | .phaser op =>
          if !s.phaserFits op q s.cur.index then s.pauseReq q.id
          else match s.phaserAt op q s.cur.index with
          | (s, some v) => s.homeReply q v
          | (s, none) => s
        | _ => s)

/-- AADD (R237, R238). -/
def execAadd (r : Rec) (s : State) : Host.Outcome State Fault Refusal :=
  eitherFiring 0x90 r (fun t => t.stationReq 0x90 r (.atomic .add) 4) s

/-- AMINS (R237, R238). -/
def execAmins (r : Rec) (s : State) : Host.Outcome State Fault Refusal :=
  eitherFiring 0x91 r (fun t => t.stationReq 0x91 r (.atomic .mins) 4) s

/-- AMAXS (R237, R238). -/
def execAmaxs (r : Rec) (s : State) : Host.Outcome State Fault Refusal :=
  eitherFiring 0x92 r (fun t => t.stationReq 0x92 r (.atomic .maxs) 4) s

/-- AMINN (R237, R238). -/
def execAminn (r : Rec) (s : State) : Host.Outcome State Fault Refusal :=
  eitherFiring 0x93 r (fun t => t.stationReq 0x93 r (.atomic .minn) 4) s

/-- AMAXN (R237, R238). -/
def execAmaxn (r : Rec) (s : State) : Host.Outcome State Fault Refusal :=
  eitherFiring 0x94 r (fun t => t.stationReq 0x94 r (.atomic .maxn) 4) s

/-- AAND (R237, R238). -/
def execAand (r : Rec) (s : State) : Host.Outcome State Fault Refusal :=
  eitherFiring 0x95 r (fun t => t.stationReq 0x95 r (.atomic .and) 4) s

/-- AOR (R237, R238). -/
def execAor (r : Rec) (s : State) : Host.Outcome State Fault Refusal :=
  eitherFiring 0x96 r (fun t => t.stationReq 0x96 r (.atomic .or) 4) s

/-- AXOR (R237, R238). -/
def execAxor (r : Rec) (s : State) : Host.Outcome State Fault Refusal :=
  eitherFiring 0x97 r (fun t => t.stationReq 0x97 r (.atomic .xor) 4) s

/-- AXCHG (R237, R238). -/
def execAxchg (r : Rec) (s : State) : Host.Outcome State Fault Refusal :=
  eitherFiring 0x98 r (fun t => t.stationReq 0x98 r (.atomic .xchg) 4) s

/-- ACAS (R239): with a failure order of .acq a failed one is an acquire as well; it is one as a success. -/
def execAcas (r : Rec) (s : State) : Host.Outcome State Fault Refusal :=
  eitherFiring 0x99 r (fun t => t.stationReq 0x99 r (.atomic .cas) 4) s

/-- AFADD (R240). -/
def execAfadd (r : Rec) (s : State) : Host.Outcome State Fault Refusal :=
  eitherFiring 0x9A r (fun t => t.stationReq 0x9A r (.atomic .fadd) 4) s

/-- PREG (R249): relaxed. -/
def execPreg (r : Rec) (s : State) : Host.Outcome State Fault Refusal :=
  firing 0xA6 r (fun t =>
    t.startUnordered { t.stationReq 0xA6 r (.phaser .reg) 128 with acquire := false, release := false }) s

/-- PSIG (R249): a release. -/
def execPsig (r : Rec) (s : State) : Host.Outcome State Fault Refusal :=
  firing 0xA7 r (fun t =>
    t.startUnordered { t.stationReq 0xA7 r (.phaser .sig) 128 with acquire := false, release := true }) s

/-- PWAIT (R250): an acquire. -/
def execPwait (r : Rec) (s : State) : Host.Outcome State Fault Refusal :=
  firing 0xA8 r (fun t =>
    t.startUnordered { t.stationReq 0xA8 r (.phaser .wait) 128 with acquire := true, release := false }) s

/-- PDROP (R249): relaxed. -/
def execPdrop (r : Rec) (s : State) : Host.Outcome State Fault Refusal :=
  firing 0xA9 r (fun t =>
    t.startUnordered { t.stationReq 0xA9 r (.phaser .drop) 128 with acquire := false, release := false }) s

/-- PSTAT (R250): relaxed. -/
def execPstat (r : Rec) (s : State) : Host.Outcome State Fault Refusal :=
  firing 0xAA r (fun t =>
    t.startUnordered { t.stationReq 0xAA r (.phaser .stat) 128 with acquire := false, release := false }) s

end Sys2Proof.Machine
end

