-- ==== Sys2Proof/Machine/Channel.lean ====
section
/-! DEFINITION. Channels (0xB5 and 0xB6, R261 to R264, R438) and the arrival of counted words. -/

namespace Sys2Proof.Machine

open Sys2Proof

/-- The count of a channel tag (R261). -/
def State.channelCount (s : State) (t : Nat) : Nat := s.channels.getD t 0

/-- The channel element that binds a tag: cluster, station and binding (R261: one in the device). -/
def State.binder (s : State) (t : Nat) : Option (Nat × Nat × Binding) :=
  (s.regions.filterMap (fun (c, r) =>
    (r.bindings.find? (fun e => e.2.channel.toNat == t)).map (fun e => (c, e.1, e.2)))).head?

/-- The element that holds a tag, also by a binding that is saved with its context in a freeze (R261, R422). -/
def State.holderOf (s : State) (t : Nat) : Option (Nat × Nat) :=
  ((s.binder t).map (fun e => (e.1, e.2.1))).or
    (s.saves.findSome? (fun e => (e.2.region.bindings.find? (fun b => b.2.channel.toNat == t)).map (fun b => (e.2.cluster, b.1))))

/-- The state with the binding of an element changed. -/
def State.setBinding (s : State) (c st : Nat) (b : Binding) : State :=
  s.updRegion c (fun r => { r with bindings := r.bindings.set st b })

/-- The binding that an element has in the saved state of a frozen context ends with it, and its held token counts as consumed (R262). -/
def Saved.unbind (v : Saved) (c st : Nat) : Saved :=
  match (if v.cluster = c then v.region.bindings.get? st else none) with
  | some b =>
    let r := v.region
    let x := (tagCtx b.tag).toNat
    let n := r.counts.getD x {}
    { v with region := { r with bindings := r.bindings.erase st,
                                counts := if b.flag then r.counts else r.counts.set x { n with flight := n.flight - 1 } } }
  | none => v

/-- An element's binding ends; a held token counts as consumed (R262). -/
def State.unbind (s : State) (c st : Nat) : State :=
  let s := { s with saves := s.saves.map (fun (e : Nat × Saved) => (e.1, e.2.unbind c st)) }
  match (s.region c).bindings.get? st with
  | some b =>
    let s := s.updRegion c (fun r => { r with bindings := r.bindings.erase st })
    if b.flag then s else s.flightDown c b.tag
  | none => s

/-- The physical address of a tag's arrival flag (R438). -/
def State.flagAddr (s : State) (t : Nat) : Nat := s.regs.flagbase.toNat + 8 * t

/-- The context that made a binding, while it lives (R263). -/
def State.binderCtx (s : State) (c : Nat) (b : Binding) : Option Ctx :=
  (s.ctxAt c (tagCtx b.tag)).filter (fun k => k.id == b.ctx && !k.killed)

/-- The write of the arrival flag of a binding with the number v, as a request of the thread that made the binding: a release at .sys that
counts as outstanding until it is performed (R263, R349, R359), with the values its reply carries. A later write of the flag comes after it
(R263). -/
def State.flagReq (s : State) (c st : Nat) (b : Binding) (v : Nat) (release : Bool) (reply : List Value) : State :=
  let q : MemReq := { id := s.nextId, cluster := c, station := st, tag := b.tag, kind := .flagWrite,
                      va := BitVec.ofNat 64 (s.flagAddr b.channel.toNat), size := 8, scope := 4, data := bytesOfNat 8 v,
                      release := release, result := reply }
  (s.addReq q).dueEvent .pageWalk { id := q.id }

/-- The arrival flag of a binding is written with the number of completed phases (R263): for the context that made the binding, or for the
binding alone once that context is gone. An earlier write of the flag that is still to be performed takes the new value with it, so that the
flag only rises (R438). -/
def State.writeFlag (s : State) (c st : Nat) (b : Binding) (v : Nat) : State :=
  match s.binderCtx c b with
  | some _ => s.flagReq c st b v false []
  | none =>
    let pa := s.flagAddr b.channel.toNat
    let late := fun (q : MemReq) => q.kind == .flagWrite && q.va.toNat == pa && q.stage != .performed && !s.spanReqs.any (fun e => e.id == q.id)
    if s.reqs.any late then { s with reqs := s.reqs.map (fun q => if late q then { q with data := bytesOfNat 8 v } else q) }
    else s.writePhys pa (bytesOfNat 8 v)

/-- One phase of a bound tag whose count has reached its expectation: EXP is taken off the count, and the phase number goes to the
targets in token mode, or the number of completed phases to the flag in flag mode (R262, R263). In token mode it waits while the
context may not fire (R414). A speculation's phases are given back at its discard (R396). -/
def State.channelPhase (s : State) (t : Nat) : State :=
  match s.binder t with
  | none => s
  | some (c, st, b) =>
    let n : Nat := s.channelCount t
    if n < b.exp.toNat then s
    else if !b.flag && !s.runs c b.tag then s.dueOnce (.event .channelArrival { index := t })
    else
      let s := { s with channels := s.channels.set t (n - b.exp.toNat) }
      let s := s.setBinding c st { b with phase := b.phase + 1 }
      let s := match s.specOf c b.tag with
        | some (q, x) => if (s.binderCtx c b).isSome then
            s.updFerry q (fun f => { f with spec := some { x with taken := (t, b.exp.toNat) :: x.taken } }) else s
        | none => s
      let s := if b.flag then s.writeFlag c st b (b.phase + 1)
        else
          let r := s.recAt c st
          let v : Value := .narrow (BitVec.ofNat 32 b.phase)
          (s.emitTo c st r.t0 v b.tag).emitTo c st r.t1 v b.tag
      s.dueOnce (.event .channelArrival { index := t })

/-- CHANNEL_ARRIVAL (R261 to R264): words that a copy wrote are visible and add to their tag's count, up to 2^32 − 1; a bound tag
completes its phases. -/
def execChannelArrival (s : State) : Host.Outcome State Fault Refusal :=
  let t := s.cur.index
  let n : Nat := s.cur.amount.getD 0
  let s := if n = 0 then s else { s with channels := s.channels.set t (min (s.channelCount t + n) (2 ^ 32 - 1)) }
  done (s.channelPhase t)

/-- A binding of the firing in hand: ACCESS where another element holds the tag, and where a flag mode has no table, whatever EXP is (R262,
R438). In flag
mode the flag's write of 0 follows, and its reply is CHEXP's token (R263). -/
def State.bindChannel (s : State) (flag : Bool) : State :=
  let x := s.cur
  let t := (x.bw.extractLsb' 0 16).toNat
  let other := match s.holderOf t with
    | some (c, st) => c != x.cluster || st != x.station
    | none => false
  if flag ∧ s.regs.flagbase = 0 then s.trapHere .access
  else if x.aw = 0 then s.unbind x.cluster x.station
  else if other then s.trapHere .access
  else
    let s := s.unbind x.cluster x.station
    let b : Binding := { channel := x.bw.extractLsb' 0 16, exp := x.aw, phase := 0, flag := flag, value := x.aw, tag := x.tag,
                         ctx := ((s.ctxAt x.cluster (tagCtx x.tag)).map (fun k => k.id)).getD 0 }
    let s := s.setBinding x.cluster x.station b
    let s := if flag then s.flagReq x.cluster x.station b 0 true [.narrow 0] else s.flightUp x.cluster x.tag
    s.dueOnce (.event .channelArrival { index := t })

/-- CHBIND (R262): token mode. -/
def execChbind (r : Rec) (s : State) : Host.Outcome State Fault Refusal :=
  firing 0xB5 r (fun t => t.bindChannel false) s

/-- CHEXP (R263): flag mode. -/
def execChexp (r : Rec) (s : State) : Host.Outcome State Fault Refusal :=
  firing 0xB6 r (fun t => t.bindChannel true) s

end Sys2Proof.Machine
end

