-- ==== Sys2Proof/Machine/Compare.lean ====
section
/-! DEFINITION. Compares and predicates (group 0x3: R187, R188). -/

namespace Sys2Proof.Machine

open Sys2Proof

/-- CEQ (R187). -/
def execCeq (r : Rec) (s : State) : Host.Outcome State Fault Refusal :=
  resultOf 0x30 r (fun x => lanewise2 (laneType r.fmt) (fun a b => ofTruth (a == b)) x.aw x.bw) s

/-- CNE (R187). -/
def execCne (r : Rec) (s : State) : Host.Outcome State Fault Refusal :=
  resultOf 0x31 r (fun x => lanewise2 (laneType r.fmt) (fun a b => ofTruth (a != b)) x.aw x.bw) s

/-- CLTS (R187). -/
def execClts (r : Rec) (s : State) : Host.Outcome State Fault Refusal :=
  resultOf 0x32 r (fun x => lanewise2 (laneType r.fmt) (fun a b => ofTruth (lessSigned (laneType r.fmt).w a b)) x.aw x.bw) s

/-- CLES (R187). -/
def execCles (r : Rec) (s : State) : Host.Outcome State Fault Refusal :=
  resultOf 0x33 r (fun x => lanewise2 (laneType r.fmt) (fun a b => ofTruth (lessEqSigned (laneType r.fmt).w a b)) x.aw x.bw) s

/-- CLTN (R187). -/
def execCltn (r : Rec) (s : State) : Host.Outcome State Fault Refusal :=
  resultOf 0x34 r (fun x => lanewise2 (laneType r.fmt) (fun a b => ofTruth (decide (a < b))) x.aw x.bw) s

/-- CLEN (R187). -/
def execClen (r : Rec) (s : State) : Host.Outcome State Fault Refusal :=
  resultOf 0x35 r (fun x => lanewise2 (laneType r.fmt) (fun a b => ofTruth (decide (a ≤ b))) x.aw x.bw) s

/-- CBIT (R188): bit b mod 32 of a. -/
def execCbit (r : Rec) (s : State) : Host.Outcome State Fault Refusal :=
  resultOf 0x36 r (fun x => BitVec.ofNat 32 (ofTruth (x.aw.getLsbD (x.bw.toNat % 32)))) s

/-- PAND (R188). -/
def execPand (r : Rec) (s : State) : Host.Outcome State Fault Refusal :=
  resultOf 0x37 r (fun x => BitVec.ofNat 32 (ofTruth (x.aw.getLsbD 0 && x.bw.getLsbD 0))) s

/-- POR (R188). -/
def execPor (r : Rec) (s : State) : Host.Outcome State Fault Refusal :=
  resultOf 0x38 r (fun x => BitVec.ofNat 32 (ofTruth (x.aw.getLsbD 0 || x.bw.getLsbD 0))) s

/-- PXOR (R188). -/
def execPxor (r : Rec) (s : State) : Host.Outcome State Fault Refusal :=
  resultOf 0x39 r (fun x => BitVec.ofNat 32 (ofTruth (x.aw.getLsbD 0 != x.bw.getLsbD 0))) s

/-- PNOT (R188). -/
def execPnot (r : Rec) (s : State) : Host.Outcome State Fault Refusal :=
  resultOf 0x3A r (fun x => BitVec.ofNat 32 (ofTruth (!x.aw.getLsbD 0))) s

end Sys2Proof.Machine
end

