-- ==== Sys2Proof/Machine/Transcendental.lean ====
section
/-! DEFINITION. The correctly rounded 2^x, log2 x, tanh x and 1/(1 + e^−x) (R196, R272): the exact value is enclosed between
two neighbouring fixed-point numbers, finer and finer, until both sides round alike. The value is irrational for every
operand that is not treated on its own, so some precision decides it; the fuel allows thirty doublings (assumption log
11). -/

namespace Sys2Proof

/-- An open interval (lo, lo + width) × 2^exp that holds a magnitude. -/
structure Enclosure where
  lo    : Nat
  width : Nat
  exp   : Int
  deriving DecidableEq, Repr

/-- Guard bits of the working precision. -/
abbrev guardBits : Nat := 64

/-- A bound on the error of the fixed-point series, in units of the working precision. -/
abbrev seriesError : Nat := 2 ^ 44

/-- The terms of 2·atanh(num/den) from term i, in units of 2^−q: t is (num/den)^(2i+1). -/
def atanhTerms (num den : Nat) : Nat → Nat → Nat → Nat
  | 0, _, _ => 0
  | fuel + 1, i, t => t / (2 * i + 1) + atanhTerms num den fuel (i + 1) (t * num / den * num / den)

/-- 2·atanh(num/den) = ln((den + num)/(den − num)) for num/den ≤ 1/3, in units of 2^−q, from below. -/
def lnRatio (q num den : Nat) : Nat := 2 * atanhTerms num den (q / 3 + 4) 0 (num * 2 ^ q / den)

/-- ln 2 in units of 2^−q, from below. -/
def lnTwo (q : Nat) : Nat := lnRatio q 1 3

/-- The terms of e^r from term i, in units of 2^−q: t is r^i / i!. -/
def expTerms (q r : Nat) : Nat → Nat → Nat → Nat
  | 0, _, _ => 0
  | fuel + 1, i, t => if t = 0 then 0 else t + expTerms q r fuel (i + 1) (t * r / 2 ^ q / (i + 1))

/-- e^r for 0 ≤ r < 1 in units of 2^−q, from below. -/
def expSeries (q r : Nat) : Nat := expTerms q r (q + 4) 0 (2 ^ q)

/-- m × 2^e in units of 2^−q, from below. -/
def toFixed (q m : Nat) (e : Int) : Nat := if 0 ≤ e + q then m * 2 ^ (e + q).toNat else m / 2 ^ (-(e + q)).toNat

/-- An enclosure of p-bit precision from bounds in units of 2^−q, kept inside given bounds. -/
def enclose (p : Nat) (lo hi floor ceil : Nat) (exp : Int) : Enclosure :=
  let l := max (lo / 2 ^ guardBits) floor
  let h := min (hi / 2 ^ guardBits + 1) ceil
  { lo := l, width := max 1 (h - l), exp := exp - p }

/-- 2^x for a non-integral x. -/
def encloseExp2 (neg : Bool) (m : Nat) (e : Int) (p : Nat) : Enclosure :=
  let q := p + guardBits
  let fixed := toFixed q m e
  let exact := decide (0 ≤ e + q) || m % 2 ^ (-(e + q)).toNat == 0
  let x : Int := if neg then -(fixed : Int) - (if exact then 0 else 1) else fixed
  let n := x / 2 ^ q
  let f := (x % 2 ^ q).toNat
  let s := expSeries q (f * lnTwo q / 2 ^ q)
  enclose p s (s + seriesError) (2 ^ p) (2 ^ (p + 1)) n

/-- |log2 x| for an x that is no power of two, with x = m × 2^e. -/
def encloseLog2 (m : Nat) (e : Int) (p : Nat) : Enclosure :=
  let q := p + guardBits
  let b := natBits m
  let int : Int := (b : Int) - 1 + e
  let a := lnRatio q (m - 2 ^ (b - 1)) (m + 2 ^ (b - 1))
  let l := lnTwo q
  let lo : Int := int * 2 ^ q + (a * 2 ^ q / (l + seriesError) : Nat)
  let hi : Int := int * 2 ^ q + ((a + seriesError) * 2 ^ q / l + 1 : Nat)
  if 0 ≤ int then enclose p lo.toNat hi.toNat 0 (2 ^ (p + 20)) 0
  else enclose p (-hi).toNat (-lo).toNat 0 (2 ^ (p + 20)) 0

/-- Bounds of e^−y for y = m × 2^e > 0, in units of 2^−q. -/
def expNegBounds (q m : Nat) (e : Int) : Nat × Nat :=
  let y := toFixed q m e
  let l := lnTwo q
  let n := y / l + 1
  let s := expSeries q (n * l - y - 1)
  ((s - seriesError) / 2 ^ n, (s + seriesError) / 2 ^ n + 1)

/-- tanh x for x > 0. -/
def encloseTanh (m : Nat) (e : Int) (p : Nat) : Enclosure :=
  let q := p + guardBits
  let t := expNegBounds q m (e + 1)
  let one := 2 ^ q
  enclose p ((one - t.2) * one / (one + t.2)) ((one - t.1) * one / (one + t.1)) 0 (2 ^ p) 0

/-- 1/(1 + e^−x). -/
def encloseSigm (neg : Bool) (m : Nat) (e : Int) (p : Nat) : Enclosure :=
  let q := p + guardBits
  let t := expNegBounds q m e
  let one := 2 ^ q
  if neg then enclose p (t.1 * one / (one + t.1)) (t.2 * one / (one + t.2)) 0 (2 ^ (p - 1)) 0
  else enclose p (one * one / (one + t.2)) (one * one / (one + t.1)) (2 ^ (p - 1)) (2 ^ p) 0

/-- The doublings that `refine` may make: the last precision has 96 × 2^30 bits, for which `seriesError` still bounds the error. -/
abbrev precisionFuel : Nat := 30

/-- The rounding of an enclosed value: the enclosure at precision p is used once both of its ends round alike and it resolves
the 16 fraction bits of R144, and the precision is doubled otherwise. -/
def refine (code mode draw : Nat) (neg : Bool) (enc : Nat → Enclosure) : Nat → Nat → Nat
  | 0, p => let x := enc p; roundTo code mode false draw (.fin neg x.lo x.exp true)
  | fuel + 1, p =>
    let x := enc p
    let lo := roundTo code mode false draw (.fin neg x.lo x.exp true)
    let hi := roundTo code mode false draw (.fin neg (x.lo + x.width - 1) x.exp true)
    if lo = hi ∧ x.exp + 17 ≤ lastPlace (floatFormat code) x.lo x.exp then lo
    else refine code mode draw neg enc fuel (2 * p)

/-- Whether m × 2^e is integral. -/
def isIntegral (m : Nat) (e : Int) : Bool := decide (0 ≤ e) || m % 2 ^ (-e).toNat == 0

/-- Whether a magnitude is at least 2^13: past every range that the four functions resolve. -/
def isHuge (m : Nat) (e : Int) : Bool := decide (13 < (natBits m : Int) + e)

/-- A magnitude just below 1, and one just above 0. -/
def belowOne (neg : Bool) : Exact := .fin neg (2 ^ 4000 - 1) (-4000) true

def aboveZero : Exact := .fin false 0 (-20000) true

/-- 2^x rounded to a format (R196, R272). -/
def exp2Bits (code mode draw operand : Nat) : Nat :=
  match decodeFloat code operand with
  | .nan => canonicalNaN code
  | .inf n => if n then 0 else infinityBits code
  | .fin n m e _ =>
    if m = 0 then roundTo code mode false draw (.fin false 1 0 false)
    else if isHuge m e then roundTo code mode false draw (if n then aboveZero else .fin false 1 20000 true)
    else if isIntegral m e then
      let v := signedMag n m e 0
      let k : Int := if 0 ≤ e then v else (if n then -((m / 2 ^ (-e).toNat : Nat) : Int) else (m / 2 ^ (-e).toNat : Nat))
      roundTo code mode false draw (.fin false 1 k false)
    else refine code mode draw false (encloseExp2 n m e) precisionFuel 96

/-- log2 x rounded to a format (R272). -/
def log2Bits (code mode draw operand : Nat) : Nat :=
  match decodeFloat code operand with
  | .nan => canonicalNaN code
  | .inf n => if n then canonicalNaN code else infinityBits code
  | .fin n m e _ =>
    if m = 0 then signBit code true + infinityBits code
    else if n then canonicalNaN code
    else
      let int : Int := (natBits m : Int) - 1 + e
      if m = 2 ^ (natBits m - 1) then roundTo code mode false draw (.fin (decide (int < 0)) int.natAbs 0 false)
      else refine code mode draw (decide (int < 0)) (encloseLog2 m e) precisionFuel 96

/-- tanh x rounded to a format (R272). Below 2^−70 the value lies just under x. -/
def tanhBits (code mode draw operand : Nat) : Nat :=
  match decodeFloat code operand with
  | .nan => canonicalNaN code
  | .inf n => roundTo code mode false draw (.fin n 1 0 false)
  | .fin n m e _ =>
    if m = 0 then signBit code n
    else if isHuge m e then roundTo code mode false draw (belowOne n)
    else if (natBits m : Int) + e < -70 then roundTo code mode false draw (.fin n (m * 2 ^ 80 - 1) (e - 80) true)
    else refine code mode draw n (encloseTanh m e) precisionFuel 96

/-- 1/(1 + e^−x) rounded to a format (R272). -/
def sigmBits (code mode draw operand : Nat) : Nat :=
  match decodeFloat code operand with
  | .nan => canonicalNaN code
  | .inf n => if n then 0 else roundTo code mode false draw (.fin false 1 0 false)
  | .fin n m e _ =>
    if m = 0 then roundTo code mode false draw (.fin false 1 (-1) false)
    else if isHuge m e then roundTo code mode false draw (if n then aboveZero else belowOne false)
    else refine code mode draw false (encloseSigm n m e) precisionFuel 96

end Sys2Proof
end

