-- ==== Sys2Proof/Machine/Float.lean ====
section
/-! DEFINITION. Scalar floating point (group 0x5: R195 to R199). -/

namespace Sys2Proof.Machine

open Sys2Proof

/-- The lanes of a PE floating operation: one in the low bits, or two of 16 bits with .x2; the rest of the result is zero
(R195). -/
def floatLanes (code : Nat) (x2 : Bool) (f : Nat → Nat → Nat → Nat) (x : Site) : Word :=
  let w := (floatFormat code).bits
  BitVec.ofNat 32 (joinLanes w ((List.range (if x2 then 2 else 1)).map (fun i =>
    f (lane w x.aw i) (lane w x.bw i) (lane w x.cw i))))

/-- A PE floating operation on exact values, rounded once to its format under its mode (R138, R196). -/
def floatOp (r : Rec) (f : Exact → Exact → Exact → Exact) (x : Site) : Word :=
  let code := r.fmt.toNat
  floatLanes code (r.flags.getLsbD 0)
    (fun a b c => roundTo code r.rnd false 0 (f (decodeFloat code a) (decodeFloat code b) (decodeFloat code c))) x

/-- |x| of an encoding: a NaN gives the canonical NaN (R197). -/
def absBits (code v : Nat) : Nat :=
  if decodeFloat code v = .nan then canonicalNaN code else v % 2 ^ ((floatFormat code).bits - 1)

/-- −x of an encoding: a NaN gives the canonical NaN (R197). -/
def negBits (code v : Nat) : Nat :=
  if decodeFloat code v = .nan then canonicalNaN code else v ^^^ signBit code true

/-- FADD (R196). -/
def execFadd (r : Rec) (s : State) : Host.Outcome State Fault Refusal :=
  resultOf 0x50 r (floatOp r (fun x y _ => x.add r.rnd y)) s

/-- FSUB (R196). -/
def execFsub (r : Rec) (s : State) : Host.Outcome State Fault Refusal :=
  resultOf 0x51 r (floatOp r (fun x y _ => x.add r.rnd y.negate)) s

/-- FMUL (R196). -/
def execFmul (r : Rec) (s : State) : Host.Outcome State Fault Refusal :=
  resultOf 0x52 r (floatOp r (fun x y _ => x.mul y)) s

/-- FFMA (R196): rounded once. -/
def execFfma (r : Rec) (s : State) : Host.Outcome State Fault Refusal :=
  resultOf 0x53 r (floatOp r (fun x y z => (x.mul y).add r.rnd z)) s

/-- FFMS (R196): rounded once. -/
def execFfms (r : Rec) (s : State) : Host.Outcome State Fault Refusal :=
  resultOf 0x54 r (floatOp r (fun x y z => (x.mul y).add r.rnd z.negate)) s

/-- FMIN (R139, R197). -/
def execFmin (r : Rec) (s : State) : Host.Outcome State Fault Refusal :=
  resultOf 0x55 r (floatOp r (fun x y _ => x.minimum y)) s

/-- FMAX (R139, R197). -/
def execFmax (r : Rec) (s : State) : Host.Outcome State Fault Refusal :=
  resultOf 0x56 r (floatOp r (fun x y _ => x.maximum y)) s

/-- FABS (R197). -/
def execFabs (r : Rec) (s : State) : Host.Outcome State Fault Refusal :=
  resultOf 0x57 r (floatLanes r.fmt.toNat (r.flags.getLsbD 0) (fun a _ _ => absBits r.fmt.toNat a)) s

/-- FNEG (R197). -/
def execFneg (r : Rec) (s : State) : Host.Outcome State Fault Refusal :=
  resultOf 0x58 r (floatLanes r.fmt.toNat (r.flags.getLsbD 0) (fun a _ _ => negBits r.fmt.toNat a)) s

/-- FCMP (R198): the one-hot relation code per lane. -/
def execFcmp (r : Rec) (s : State) : Host.Outcome State Fault Refusal :=
  resultOf 0x59 r (floatLanes r.fmt.toNat (r.flags.getLsbD 0) (fun a b _ => (decodeFloat r.fmt.toNat a).relation (decodeFloat r.fmt.toNat b))) s

/-- FDIV (R196). -/
def execFdiv (r : Rec) (s : State) : Host.Outcome State Fault Refusal :=
  resultOf 0x5A r (floatOp r (fun x y _ => x.div y)) s

/-- FSQRT (R196). -/
def execFsqrt (r : Rec) (s : State) : Host.Outcome State Fault Refusal :=
  resultOf 0x5B r (floatOp r (fun x _ _ => x.sqrt)) s

/-- FRCP (R196). -/
def execFrcp (r : Rec) (s : State) : Host.Outcome State Fault Refusal :=
  resultOf 0x5C r (floatOp r (fun x _ _ => x.recip)) s

/-- FRSQ (R196). -/
def execFrsq (r : Rec) (s : State) : Host.Outcome State Fault Refusal :=
  resultOf 0x5D r (floatOp r (fun x _ _ => x.rsqrt)) s

/-- FCLASS (R199). -/
def execFclass (r : Rec) (s : State) : Host.Outcome State Fault Refusal :=
  resultOf 0x5E r (floatLanes r.fmt.toNat (r.flags.getLsbD 0) (fun a _ _ => classMask r.fmt.toNat a)) s

/-- FEXP2 (R196): correctly rounded. -/
def execFexp2 (r : Rec) (s : State) : Host.Outcome State Fault Refusal :=
  resultOf 0x5F r (floatLanes r.fmt.toNat (r.flags.getLsbD 0) (fun a _ _ => exp2Bits r.fmt.toNat r.rnd 0 a)) s

end Sys2Proof.Machine
end

