-- ==== Sys2Proof/Machine/Convert.lean ====
section
/-! DEFINITION. Scalar conversions (group 0x6: R200 to R203). -/

namespace Sys2Proof.Machine

open Sys2Proof

/-- An integer of a type as an exact value (R201). -/
def intExact (v : Int) : Exact := .fin (decide (v < 0)) v.natAbs 0 false

/-- CVTIF's result: the integer in the low bits of a, read by the source type, as a float (R130, R201). -/
def cvtifWord (r : Rec) (a : Word) : Word :=
  let t := laneType (BitVec.ofNat 4 r.src)
  BitVec.ofNat 32 (convertTo r.fmt.toNat r.rnd 0 (intExact (t.read (lane t.w a 0)))).1

/-- CVTFI's result: the float rounded to an integral value and clamped to the type, extended (R147, R202). -/
def cvtfiWord (r : Rec) (a : Word) : Word :=
  let t := laneType r.fmt
  let x := decodeFloat r.src (a.toNat % 2 ^ (floatFormat r.src).bits)
  t.ext (wrapBits t.w (convertToInt t.natural t.w r.rnd x))

/-- CVTFF's result, one lane or two (R147, R203). -/
def cvtffWord (r : Rec) (a : Word) : Word :=
  let ws := (floatFormat r.src).bits
  let wd := (floatFormat r.fmt.toNat).bits
  BitVec.ofNat 32 (joinLanes wd ((List.range (if r.flags.getLsbD 0 then 2 else 1)).map (fun i =>
    (convertTo r.fmt.toNat r.rnd 0 (decodeFloat r.src (lane ws a i))).1)))

/-- CVTIF (R200, R201). -/
def execCvtif (r : Rec) (s : State) : Host.Outcome State Fault Refusal :=
  resultOf 0x60 r (fun x => cvtifWord r x.aw) s

/-- CVTFI (R200, R202). -/
def execCvtfi (r : Rec) (s : State) : Host.Outcome State Fault Refusal :=
  resultOf 0x61 r (fun x => cvtfiWord r x.aw) s

/-- CVTFF (R200, R203). -/
def execCvtff (r : Rec) (s : State) : Host.Outcome State Fault Refusal :=
  resultOf 0x62 r (fun x => cvtffWord r x.aw) s

/-- FROUND (R203). -/
def execFround (r : Rec) (s : State) : Host.Outcome State Fault Refusal :=
  resultOf 0x63 r (floatLanes r.fmt.toNat (r.flags.getLsbD 0)
    (fun a _ _ => roundTo r.fmt.toNat r.rnd false 0 ((decodeFloat r.fmt.toNat a).integral r.rnd))) s

end Sys2Proof.Machine
end

