-- ==== Sys2Proof/Machine/Copy.lean ====
section
/-! DEFINITION. Copy templates (0xB0 to 0xB4, R254 to R260): descriptors, triggers, the copy element by element, its fault and its
completion. -/

namespace Sys2Proof.Machine

open Sys2Proof

/-! ## Descriptors (R255 to R257) -/

/-- A little-endian field of a descriptor: `n` bytes at an offset. -/
def descNat (d : Wide) (off n : Nat) : Nat := (d.extractLsb' (8 * off) (8 * n)).toNat

/-- A signed 4-byte field of a descriptor. -/
def descInt (d : Wide) (off : Nat) : Int := (d.extractLsb' (8 * off) 32).toInt

/-- Bytes of a source and of a destination element. -/
def descEsize (d : Wide) : Nat := 2 ^ (descNat d 0x60 4 % 8)

def descDsize (d : Wide) : Nat := 2 ^ (descNat d 0x60 4 / 8 % 8)

/-- CONV, SFMT, DFMT and the rounding code. -/
def descConv (d : Wide) : Bool := (descNat d 0x60 4).testBit 6

def descSfmt (d : Wide) : Nat := descNat d 0x60 4 / 2 ^ 8 % 16

def descDfmt (d : Wide) : Nat := descNat d 0x60 4 / 2 ^ 12 % 16

def descRnd (d : Wide) : Nat := descNat d 0x60 4 / 2 ^ 16 % 8

/-- REMOTE and the destination device of TGT. -/
def descRemote (d : Wide) : Bool := (descNat d 0x64 4).testBit 31

def descDevice (d : Wide) : Nat := descNat d 0x64 4 % 4096

/-- The channel tag, where CHV is set. -/
def descChannel (d : Wide) : Option Nat :=
  if (descNat d 0x68 4).testBit 16 then some (descNat d 0x68 4 % 65536) else none

/-- The extents from an offset. -/
def descExtents (d : Wide) (off : Nat) : List Nat := (List.range 4).map (fun i => descNat d (off + 4 * i) 4)

/-- The strides from an offset. -/
def descStrides (d : Wide) (off : Nat) : List Int := (List.range 4).map (fun i => descInt d (off + 4 * i))

/-- N, the number of elements (R256). -/
def descCount (d : Wide) : Nat := (descExtents d 0x20).foldl (· * ·) 1

/-- Bits of an element format code (R78), in bytes as a size code. -/
def formatBytes (code : Nat) : Nat := (floatFormat code).bits / 8

/-- The bytes outside the fields, and the reserved bits of the fields (R255). -/
def descReserved (d : Wide) : Bool :=
  descNat d 0x6C 20 != 0 || (descNat d 0x60 4).testBit 7 || descNat d 0x60 4 / 2 ^ 19 != 0
    || descNat d 0x64 4 / 2 ^ 12 % 2 ^ 19 != 0 || descNat d 0x68 4 / 2 ^ 17 != 0

/-- Extents out of range, or a number of elements that breaks R256. -/
def descMiscounts (d : Wide) : Bool :=
  !(descExtents d 0x20 ++ descExtents d 0x40).all (fun e => decide (1 ≤ e) && decide (e ≤ 2 ^ 24))
    || descCount d != (descExtents d 0x40).foldl (· * ·) 1 || decide (2 ^ 32 ≤ descCount d)

/-- Sizes or formats that break R256. -/
def descMisconverts (d : Wide) : Bool :=
  if descConv d then
    decide (5 < descSfmt d) || decide (5 < descDfmt d) || decide (3 < descRnd d)
      || descEsize d != formatBytes (descSfmt d) || descDsize d != formatBytes (descDfmt d)
  else descEsize d != descDsize d

/-- The checks of CARM, in the order of R257: the ERR code, 0 where the descriptor is good. -/
def State.descError (s : State) (d : Wide) : BitVec 6 :=
  if descReserved d then 1
  else if descMiscounts d then 2
  else if (descChannel d).isSome && descCount d * descDsize d % 4 != 0 then 3
  else if descMisconverts d then 4
  else if descRemote d && s.unknownDevice (descDevice d) then 5
  else 0

/-- The checks that a write of CSET makes: those of R255 and R256 (R259). -/
def writeError (d : Wide) : BitVec 6 :=
  if descReserved d then 1 else if descMiscounts d then 2 else if descMisconverts d then 4 else 0

/-- The coordinates of element j over extents, dimension 0 first (R256). -/
def mixedRadix : Nat → List Nat → List Nat
  | _, [] => []
  | j, e :: rest => j % e :: mixedRadix (j / e) rest

/-- The byte offset of element j over extents and strides (R256). -/
def elementOffset (j : Nat) (ext : List Nat) (str : List Int) : Int :=
  (((mixedRadix j ext).zip str).map (fun p => (p.1 : Int) * p.2)).sum

/-- The source and destination addresses of element j of a copy (R256, R258). -/
def CopyRun.src (r : CopyRun) (j : Nat) : Dword :=
  BitVec.ofNat 64 (descNat r.desc 0x00 8) + r.index.zeroExtend 64 * BitVec.ofNat 64 (descNat r.desc 0x10 8)
    + BitVec.ofInt 64 (elementOffset j (descExtents r.desc 0x20) (descStrides r.desc 0x30))

def CopyRun.dst (r : CopyRun) (j : Nat) : Dword :=
  BitVec.ofNat 64 (descNat r.desc 0x08 8) + r.index.zeroExtend 64 * BitVec.ofNat 64 (descNat r.desc 0x18 8)
    + BitVec.ofInt 64 (elementOffset j (descExtents r.desc 0x40) (descStrides r.desc 0x50))

/-! ## Templates (R254, R257) -/

/-- A template of a cluster, and the state with it changed. -/
def State.template (s : State) (c k : Nat) : Template := (s.region c).templates.getD k {}

def State.updTemplate (s : State) (c k : Nat) (f : Template → Template) : State :=
  s.updRegion c (fun r => { r with templates := r.templates.set k (f (r.templates.getD k {})) })

/-- The number of a template state (R257). -/
def CopyState.code : CopyState → Nat
  | .idle => 0 | .armed => 1 | .busy => 2 | .error => 3

/-- The status word (R257). -/
def Template.status (t : Template) : Word :=
  BitVec.ofNat 2 t.state.code ++ t.err ++ BitVec.ofNat 4 t.queue.length ++ (0 : BitVec 4) ++ t.sat

/-- A context uses a template (R254). -/
def Template.use (t : Template) (x : BitVec 8) : Template :=
  if t.users.contains x then t else { t with users := t.users ++ [x] }

/-- A new descriptor: ARMED, or BUSY while a copy is in flight, or ERROR with the code of the check that fails (R257). -/
def State.armTemplate (s : State) (c k : Nat) (x : BitVec 8) (d : Wide) : State :=
  let e := s.descError d
  s.updTemplate c k (fun t =>
    let t := t.use x
    if e = 0 then { t with desc := d, err := 0, state := if t.run.isSome then .busy else .armed }
    else { t with desc := d, err := e, state := .error })

/-- A descriptor word is written; a write that breaks R255 or R256 sets ERROR at once (R259). -/
def State.setWord (s : State) (c k n : Nat) (x : BitVec 8) (w : Word) : State :=
  let old := (s.template c k).desc
  let d := (old &&& ~~~((0xFFFFFFFF : Wide) <<< (32 * n))) ||| (w.zeroExtend 1024 <<< (32 * n))
  let e := writeError d
  s.updTemplate c k (fun t =>
    let t := t.use x
    if e = 0 then { t with desc := d } else { t with desc := d, err := e, state := .error })

/-- A token i⟨g⟩ enters the trigger queue of a template (R258); it holds an entry of the queue, and counts as in flight. -/
def State.pushTrigger (s : State) (c k : Nat) (i g : Word) (reply : Option Nat) : State :=
  let after := s.issuedOf c g
  (s.updTemplate c k (fun t => { t.use (tagCtx g) with queue := t.queue ++ [{ index := i, tag := g, after := after, reply := reply }] })).dueOnce
    (.event .copyTrigger { cluster := c, index := k })

/-- The first trigger leaves its queue. -/
def State.popTrigger (s : State) (c k : Nat) (e : Trigger) : State :=
  ((s.updTemplate c k (fun t => { t with queue := t.queue.tail })).spend c e.tag e.reply).freeCredit c (triggerKey k) e.tag

/-- A template whose queue is not empty looks at its head again. -/
def State.nextTrigger (s : State) (c k : Nat) : State :=
  if (s.template c k).queue.isEmpty then s else s.dueOnce (.event .copyTrigger { cluster := c, index := k })

/-- The request that moves element j of a copy begins with its read. -/
def copyReq (c : Nat) (k : Nat) (r : CopyRun) : MemReq :=
  { id := r.req, cluster := c, station := 0x13C0 + k, tag := r.tag, kind := .copyRead k, va := r.src r.next,
    size := descEsize r.desc }

/-- The head of a trigger queue starts its copy (R258). -/
def State.startCopy (s : State) (c k : Nat) (e : Trigger) : State :=
  let t := s.template c k
  let run : CopyRun := { index := e.index, tag := e.tag, desc := t.desc, next := 0, sat := 0, req := s.nextId }
  let s := s.popTrigger c k e
  let s := s.updTemplate c k (fun t => { t with state := .busy, run := some run })
  (s.addReq (copyReq c k run)).dueEvent .pageWalk { id := run.req }

/-- COPY_TRIGGER (R258): the head of a trigger queue meets its template. It waits while a copy runs, while its context may not fire
(R414), before the accesses it follows (R356), and for the claim where it goes to another device (R388). -/
def execCopyTrigger (s : State) : Host.Outcome State Fault Refusal :=
  let x := s.cur
  let t := s.template x.cluster x.index
  done (
    match t.queue with
    | [] => s
    | e :: _ =>
      if t.run.isSome || !s.runs x.cluster e.tag then s.dueOnce (.event .copyTrigger x)
      else if t.state = .idle ∨ t.state = .error then
        let s := s.updTemplate x.cluster x.index (fun t => { t with err := 8 })
        (s.popTrigger x.cluster x.index e).nextTrigger x.cluster x.index
      else if (descRemote t.desc && s.isSpec x.cluster e.tag)
          || e.after.any (fun id => (s.issuedOf x.cluster e.tag).contains id) then
        s.dueOnce (.event .copyTrigger x)
      else s.startCopy x.cluster x.index e)

/-! ## Elements (R256, R258, R261, R437) -/

/-- The bytes of a destination element, and whether its conversion saturated (R147, R256). -/
def convertElement (d : Wide) (bytes : List Byte) : List Byte × Bool :=
  if descConv d then
    let v := convertTo (descDfmt d) (descRnd d) 0 (decodeFloat (descSfmt d) (natOfBytes bytes))
    (bytesOfNat (descDsize d) v.1, v.2)
  else (bytes, false)

/-- The channel words that element j completes: 4-byte words of the destination bytes written in order (R261). -/
def elementWords (d : Wide) (j : Nat) : Nat := (j + 1) * descDsize d / 4 - j * descDsize d / 4

/-- Words counted for a channel once they are visible: at once, or at the claim of a speculation (R261, R387). -/
def State.countWords (s : State) (c : Nat) (g : Word) (ch n : Nat) : State :=
  if n = 0 then s
  else match s.specOf c g with
    | some (q, x) => s.updFerry q (fun f => { f with spec := some { x with words := x.words ++ [(ch, n)] } })
    | none => s.dueEvent .channelArrival { index := ch, amount := some n }

/-- An element is written: the next one is read, or the copy completes. In a freeze the copy stops here (R421). -/
def State.elementDone (s : State) (q : MemReq) (k : Nat) (r : CopyRun) : State :=
  let s := match descChannel r.desc with
    | some ch => if descRemote r.desc then s else s.countWords q.cluster q.tag ch (elementWords r.desc r.next)
    | none => s
  let r := { r with next := r.next + 1 }
  let s := s.updTemplate q.cluster k (fun t => { t with run := some r })
  if r.next < descCount r.desc then
    let s := s.updReq q.id (fun q =>
      { q with kind := .copyRead k, va := r.src r.next, size := descEsize r.desc, agen := 0, got := [], stage := .issued })
    if (s.region q.cluster).halted then s.updReq q.id (fun q => { q with stage := .withdrawn }) else s.retryReq q.id
  else (s.updReq q.id (fun q => { q with stage := .performed })).dueEvent .copyComplete { cluster := q.cluster, index := k, id := q.id }

/-- The request of a copy goes on: it reads the source element, converts it, and writes the destination element, here or at
another device (R256, R437). -/
def State.copyPart (s : State) (q : MemReq) (k : Nat) (inPort : Bool) : State :=
  match (s.template q.cluster k).run with
  | none => s.endReq q
  | some r =>
    let va := q.va.toNat + q.agen
    let n := min (q.size - q.agen) (128 - va % 128)
    let last := q.agen + n = q.size
    match q.kind with
    | .copyRead _ =>
      (match s.reach q va n false inPort false with
       | .wait s => s
       | .here pa s =>
         let b := s.readReached q pa n
         let got := q.got ++ b.1
         if last then
           let v := convertElement r.desc got
           let s := b.2.updTemplate q.cluster k (fun t =>
             { t with run := some { r with sat := r.sat + (if v.2 then 1 else 0) } })
           let s := s.updReq q.id (fun q =>
             { q with kind := .copyWrite k, va := r.dst r.next, size := descDsize r.desc, agen := 0, data := v.1 })
           if descRemote r.desc then
             let s := s.updReq q.id (fun q => { q with stage := .away })
             s.toSpan q.id (descDevice r.desc) (r.dst r.next).toNat
           else s.retryReq q.id
         else (b.2.updReq q.id (fun q => { q with agen := q.agen + n, got := got })).retryReq q.id)
    | _ =>
      match s.reach q va n true inPort false with
      | .wait s => s
      | .here pa s =>
        let s := s.writeReached q pa ((q.data.drop q.agen).take n)
        if last then s.elementDone q k r
        else (s.updReq q.id (fun q => { q with agen := q.agen + n })).retryReq q.id

/-- The request of a copy goes on; at a vault port an element that crosses a bank row is one access (R327). -/
def State.copyAccess (s : State) (q : MemReq) (k : Nat) (inPort : Bool) : State :=
  let t := s.copyPart q k inPort
  match t.req? q.id with
  | some r =>
    if inPort && r.kind == q.kind && r.stage == .issued && decide (q.agen < r.agen) && rowStart (r.va.toNat + r.agen)
    then t.copyPart r k true else t
  | none => t

/-- COPY_COMPLETE (R254, R257, R258): the last element is written, here or at another device; the template is ARMED again with the
saturations of the copy, and the copy's reply is no longer outstanding. An element of a remote copy that is acknowledged lets the
next one go. -/
def execCopyComplete (s : State) : Host.Outcome State Fault Refusal :=
  let x := s.cur
  done (
    match s.req? x.id, (s.template x.cluster x.index).run with
    | some q, some r =>
      if q.stage = .away then
        { s with spanReqs := s.spanReqs.filter (fun e => e.id != q.id) }.elementDone q x.index r
      else if r.next < descCount r.desc then s
      else
        let s := (s.updTemplate x.cluster x.index (fun t =>
          { t with run := none, sat := BitVec.ofNat 16 (min r.sat 0xFFFF),
                   state := if t.state = .busy then .armed else t.state })).endReq q
        s.nextTrigger x.cluster x.index
    | _, _ => s)

/-- COPY_FAULT (R260, R437): the copy stops at its element, the template is in ERROR with FAULT, and the trap is raised in its
context. Where another device or the link refuses the element, `word` is the trap code that came back, 0 for none. -/
def execCopyFault (s : State) : Host.Outcome State Fault Refusal :=
  let x := s.cur
  done (
    match s.req? x.id, (s.template x.cluster x.index).run with
    | some q, some r =>
      let s := { s with spanReqs := s.spanReqs.filter (fun e => e.id != q.id) }
      let s := (s.updTemplate x.cluster x.index (fun t => { t with run := none, state := .error, err := 6 })).endReq q
      let t := match q.stage with
        | .held t => t
        | _ => if x.word = 0 then .access else Trap.ofCode x.word.toNat
      let s := s.takeTrapAt t q.cluster q.station q.tag 0 0 (x.amount.getD q.va.toNat) r.next (q.kindCode false) []
      s.nextTrigger x.cluster x.index
    | _, _ => s)

/-! ## The instructions (R257 to R259) -/

/-- The template a firing names: k in B[5:0]. -/
def Site.template (x : Site) : Nat := (x.bw.extractLsb' 0 6).toNat

/-- The status of the named template goes to both targets. -/
def State.sendStatus (s : State) (r : Rec) : State :=
  s.sendWord r (s.template s.cur.cluster s.cur.template).status

/-- CARM (R257): reads the descriptor at va. -/
def execCarm (r : Rec) (s : State) : Host.Outcome State Fault Refusal :=
  firing 0xB0 r (fun t => t.startUnordered (t.stationReq 0xB0 r (.descriptor s.cur.template) 128)) s

/-- The descriptor of a CARM is read (R257): aligned to 128 bytes or ALIGN; the template is armed and the reply is its
status. What is armed follows the bytes of the line themselves, also where a value read would be unspecified (R3, R320). -/
def State.descriptorAccess (s : State) (q : MemReq) (k : Nat) (inPort : Bool) : State :=
  if 2 ^ 52 ≤ q.va.toNat then s.holdReq q .page q.va.toNat false
  else if q.va.toNat % 128 ≠ 0 then s.holdReq q .align q.va.toNat false
  else match s.reach q q.va.toNat 128 false inPort false with
    | .wait s => s
    | .here pa s =>
      let b := s.readReached q pa 128
      let desc := if q.fetched.isSome then b.1 else s.bytesFor q.cluster q.tag pa 128
      let s := (b.2.armTemplate q.cluster k (tagCtx q.tag) (wideOf desc)).nextTrigger q.cluster k
      s.performed q [.narrow (s.template q.cluster k).status]

/-- CSET (R259): writes descriptor word B[12:8]. -/
def execCset (r : Rec) (s : State) : Host.Outcome State Fault Refusal :=
  firing 0xB1 r (fun t =>
    let n := (s.cur.bw.extractLsb' 8 5).toNat
    let t := if n ≤ 27 then t.setWord s.cur.cluster s.cur.template n (tagCtx s.cur.tag) s.cur.aw else t
    t.sendStatus r) s

/-- CFIRE (R258): places a in the trigger queue and sends 0 once it is queued. -/
def execCfire (r : Rec) (s : State) : Host.Outcome State Fault Refusal :=
  firing 0xB2 r (fun t =>
    let x := s.cur
    let key := triggerKey x.template
    let t := (t.updRegion x.cluster (fun k => { k with inUse := k.inUse.set key (k.inUse.getD key 0 + 1) })).flightUp
      x.cluster x.tag
    (t.pushTrigger x.cluster x.template x.aw x.tag none).sendWord r 0) s

/-- CSTAT (R259). -/
def execCstat (r : Rec) (s : State) : Host.Outcome State Fault Refusal :=
  firing 0xB3 r (fun t =>
    (t.updTemplate s.cur.cluster s.cur.template (fun k => k.use (tagCtx s.cur.tag))).sendStatus r) s

/-- The copy in flight stops and the queued triggers are discarded: ARMED with CANCELLED (R259). -/
def State.cancelCopy (s : State) (c k : Nat) (x : BitVec 8) : State :=
  let t := s.template c k
  let s := match t.run.bind (fun r => s.req? r.req) with
    | some q => { s with spanReqs := s.spanReqs.filter (fun e => e.id != q.id) }.endReq q
    | none => s
  let s := t.queue.foldl (fun s e => (s.spend c e.tag e.reply).freeCredit c (triggerKey k) e.tag) s
  s.updTemplate c k (fun t => { t.use x with state := .armed, err := 7, run := none, queue := [] })

/-- CCANCEL (R259). -/
def execCcancel (r : Rec) (s : State) : Host.Outcome State Fault Refusal :=
  firing 0xB4 r (fun t =>
    (t.cancelCopy s.cur.cluster s.cur.template (tagCtx s.cur.tag)).sendStatus r) s

end Sys2Proof.Machine
end

