-- ==== Sys2Proof/Machine/Crypto.lean ====
section
/-! DEFINITION. SHA-512 and Ed25519 (R126, R447, R452, R455): the hash, the check of a signature, and the signature of a quote. -/

namespace Sys2Proof

/-! ## SHA-512 -/

/-- The 80 constants of the rounds. -/
def shaK : List (BitVec 64) :=
  [0x428A2F98D728AE22, 0x7137449123EF65CD, 0xB5C0FBCFEC4D3B2F, 0xE9B5DBA58189DBBC,
   0x3956C25BF348B538, 0x59F111F1B605D019, 0x923F82A4AF194F9B, 0xAB1C5ED5DA6D8118,
   0xD807AA98A3030242, 0x12835B0145706FBE, 0x243185BE4EE4B28C, 0x550C7DC3D5FFB4E2,
   0x72BE5D74F27B896F, 0x80DEB1FE3B1696B1, 0x9BDC06A725C71235, 0xC19BF174CF692694]
    ++
  [0xE49B69C19EF14AD2, 0xEFBE4786384F25E3, 0x0FC19DC68B8CD5B5, 0x240CA1CC77AC9C65,
   0x2DE92C6F592B0275, 0x4A7484AA6EA6E483, 0x5CB0A9DCBD41FBD4, 0x76F988DA831153B5,
   0x983E5152EE66DFAB, 0xA831C66D2DB43210, 0xB00327C898FB213F, 0xBF597FC7BEEF0EE4,
   0xC6E00BF33DA88FC2, 0xD5A79147930AA725, 0x06CA6351E003826F, 0x142929670A0E6E70]
    ++
  [0x27B70A8546D22FFC, 0x2E1B21385C26C926, 0x4D2C6DFC5AC42AED, 0x53380D139D95B3DF,
   0x650A73548BAF63DE, 0x766A0ABB3C77B2A8, 0x81C2C92E47EDAEE6, 0x92722C851482353B,
   0xA2BFE8A14CF10364, 0xA81A664BBC423001, 0xC24B8B70D0F89791, 0xC76C51A30654BE30,
   0xD192E819D6EF5218, 0xD69906245565A910, 0xF40E35855771202A, 0x106AA07032BBD1B8]
    ++
  [0x19A4C116B8D2D0C8, 0x1E376C085141AB53, 0x2748774CDF8EEB99, 0x34B0BCB5E19B48A8,
   0x391C0CB3C5C95A63, 0x4ED8AA4AE3418ACB, 0x5B9CCA4F7763E373, 0x682E6FF3D6B2B8A3,
   0x748F82EE5DEFB2FC, 0x78A5636F43172F60, 0x84C87814A1F0AB72, 0x8CC702081A6439EC,
   0x90BEFFFA23631E28, 0xA4506CEBDE82BDE9, 0xBEF9A3F7B2C67915, 0xC67178F2E372532B]
    ++
  [0xCA273ECEEA26619C, 0xD186B8C721C0C207, 0xEADA7DD6CDE0EB1E, 0xF57D4F7FEE6ED178,
   0x06F067AA72176FBA, 0x0A637DC5A2C898A6, 0x113F9804BEF90DAE, 0x1B710B35131C471B,
   0x28DB77F523047D84, 0x32CAAB7B40C72493, 0x3C9EBE0A15C9BEBC, 0x431D67C49C100D4C,
   0x4CC5D4BECB3E42B6, 0x597F299CFC657E2A, 0x5FCB6FAB3AD6FAEC, 0x6C44198C4A475817]

/-- The initial hash value. -/
def shaH : List (BitVec 64) :=
  [0x6A09E667F3BCC908, 0xBB67AE8584CAA73B, 0x3C6EF372FE94F82B, 0xA54FF53A5F1D36F1,
   0x510E527FADE682D1, 0x9B05688C2B3E6C1F, 0x1F83D9ABFB41BD6B, 0x5BE0CD19137E2179]

/-- The 64-bit number of eight bytes, the first one highest. -/
def bigEndian64 (bytes : List Byte) : BitVec 64 := bytes.foldl (fun acc b => (acc <<< 8) ||| b.zeroExtend 64) 0

/-- The eight bytes of a number, the highest first. -/
def bytesBig64 (v : BitVec 64) : List Byte := (List.range 8).map (fun i => v.extractLsb' (8 * (7 - i)) 8)

/-- A list cut into runs of n. The fuel bounds the number of runs. -/
def chunksOf {α : Type} (n : Nat) : Nat → List α → List (List α)
  | 0, _ => []
  | _, [] => []
  | fuel + 1, l => l.take n :: chunksOf n fuel (l.drop n)

/-- A word turned right. -/
def ror64 (v : BitVec 64) (n : Nat) : BitVec 64 := (v >>> n) ||| (v <<< (64 - n))

/-- The message words of a block, latest first. -/
def shaSchedule : Nat → List (BitVec 64) → List (BitVec 64)
  | 0, w => w
  | n + 1, w =>
    let x15 := w.getD 14 0
    let x2 := w.getD 1 0
    let a := ror64 x15 1 ^^^ ror64 x15 8 ^^^ (x15 >>> 7)
    let b := ror64 x2 19 ^^^ ror64 x2 61 ^^^ (x2 >>> 6)
    shaSchedule n ((w.getD 15 0 + a + w.getD 6 0 + b) :: w)

/-- One round of the compression. -/
def shaRound (h : List (BitVec 64)) (kw : BitVec 64) : List (BitVec 64) :=
  match h with
  | [a, b, c, d, e, f, g, x] =>
    let s1 := ror64 e 14 ^^^ ror64 e 18 ^^^ ror64 e 41
    let ch := (e &&& f) ^^^ (~~~e &&& g)
    let t1 := x + s1 + ch + kw
    let s0 := ror64 a 28 ^^^ ror64 a 34 ^^^ ror64 a 39
    let maj := (a &&& b) ^^^ (a &&& c) ^^^ (b &&& c)
    [t1 + s0 + maj, a, b, c, d + t1, e, f, g]
  | h => h

/-- The hash value after a block of 128 bytes. -/
def shaBlock (h : List (BitVec 64)) (block : List Byte) : List (BitVec 64) :=
  let w := (shaSchedule 64 ((chunksOf 8 16 block).map bigEndian64).reverse).reverse
  let n := ((shaK.zip w).map (fun p => p.1 + p.2)).foldl shaRound h
  (h.zip n).map (fun p => p.1 + p.2)

/-- The 64 bytes of the SHA-512 of a message. -/
def sha512 (m : List Byte) : List Byte :=
  let pad := (239 - m.length % 128) % 128
  let full := m ++ [0x80#8] ++ List.replicate pad 0 ++ List.replicate 8 0 ++ bytesBig64 (BitVec.ofNat 64 (8 * m.length))
  ((chunksOf 128 (full.length / 128 + 1) full).foldl shaBlock shaH).map bytesBig64 |>.flatten

/-! ## Ed25519 -/

/-- The field prime, the group order, and the curve constant. -/
def edP : Nat := 2 ^ 255 - 19

def edL : Nat := 2 ^ 252 + 27742317777372353535851937790883648493

def edD : Nat := 37095705934669439343138083508754565189542113879843219016388785533085940283555

/-- A power in the field, over the bits of the exponent from the lowest. The fuel is their number. -/
def edPow : Nat → Nat → Nat → Nat
  | 0, _, _ => 1
  | fuel + 1, b, e =>
    if e = 0 then 1
    else
      let r := edPow fuel (b * b % edP) (e / 2)
      if e % 2 = 1 then r * b % edP else r

/-- The inverse in the field. -/
def edInv (a : Nat) : Nat := edPow 256 a (edP - 2)

/-- A difference in the field. -/
def edSub (a b : Nat) : Nat := (a + edP - b % edP) % edP

/-- A point in extended coordinates. -/
structure EdPoint where
  x : Nat
  y : Nat
  z : Nat
  t : Nat
  deriving DecidableEq, Repr

/-- The neutral point. -/
def edZero : EdPoint := { x := 0, y := 1, z := 1, t := 0 }

/-- The sum of two points. -/
def edAdd (p q : EdPoint) : EdPoint :=
  let a := edSub p.y p.x * edSub q.y q.x % edP
  let b := (p.y + p.x) * (q.y + q.x) % edP
  let c := 2 * p.t * q.t * edD % edP
  let d := 2 * p.z * q.z % edP
  let e := edSub b a
  let f := edSub d c
  let g := (d + c) % edP
  let h := (b + a) % edP
  { x := e * f % edP, y := g * h % edP, z := f * g % edP, t := e * h % edP }

/-- A multiple of a point, over the bits of the factor from the lowest. The fuel is their number. -/
def edMul : Nat → Nat → EdPoint → EdPoint
  | 0, _, _ => edZero
  | fuel + 1, n, p =>
    if n = 0 then edZero
    else
      let r := edMul fuel (n / 2) (edAdd p p)
      if n % 2 = 1 then edAdd r p else r

/-- Whether two points are the same. -/
def edSame (p q : EdPoint) : Bool :=
  p.x * q.z % edP == q.x * p.z % edP && p.y * q.z % edP == q.y * p.z % edP

/-- The x of a point with a y and a sign; none where there is none. -/
def edRecover (y sign : Nat) : Option Nat :=
  if edP ≤ y then none
  else
    let x2 := edSub (y * y) 1 * edInv (edD * y * y + 1) % edP
    if x2 = 0 then (if sign = 1 then none else some 0)
    else
      let r := edPow 256 x2 ((edP + 3) / 8)
      let x := if edSub (r * r) x2 = 0 then r else r * edPow 256 2 ((edP - 1) / 4) % edP
      if edSub (x * x) x2 ≠ 0 then none
      else some (if x % 2 = sign then x else edP - x)

/-- The number of little-endian bytes. -/
def edNat : List Byte → Nat
  | [] => 0
  | b :: rest => b.toNat + 256 * edNat rest

/-- The n little-endian bytes of a number. -/
def edBytes : Nat → Nat → List Byte
  | 0, _ => []
  | n + 1, v => BitVec.ofNat 8 v :: edBytes n (v / 256)

/-- The point of 32 bytes; none where they name none. -/
def edDecode (bytes : List Byte) : Option EdPoint :=
  let v := edNat bytes
  let y := v % 2 ^ 255
  (edRecover y (v / 2 ^ 255 % 2)).map (fun x => { x := x, y := y, z := 1, t := x * y % edP })

/-- The 32 bytes of a point. -/
def edEncode (p : EdPoint) : List Byte :=
  let i := edInv p.z
  let x := p.x * i % edP
  let y := p.y * i % edP
  edBytes 32 (y + x % 2 * 2 ^ 255)

/-- The base point. -/
def edBase : EdPoint :=
  let x := 15112221349535400772501151409588531511454012693041857206046113283949847762202
  let y := 46316835694926478169428394003475163141307993866256225615783033603165251855960
  { x := x, y := y, z := 1, t := x * y % edP }

/-- Whether 64 bytes are the signature of a message by a 32-byte public key. -/
def edVerify (key msg sig : List Byte) : Bool :=
  let s := edNat (sig.drop 32)
  match edDecode key, edDecode (sig.take 32) with
  | some a, some r =>
    let k := edNat (sha512 (sig.take 32 ++ key ++ msg)) % edL
    decide (sig.length = 64) && decide (key.length = 32) && decide (s < edL)
      && edSame (edMul 256 s edBase) (edAdd r (edMul 256 k a))
  | _, _ => false

/-- The scalar and the nonce half of a 32-byte secret. -/
def edSecret (secret : List Byte) : Nat × List Byte :=
  let h := sha512 secret
  let a := edNat (h.take 32) % 2 ^ 254 / 8 * 8 + 2 ^ 254
  (a, h.drop 32)

/-- The public key of a secret. -/
def edPublic (secret : List Byte) : List Byte := edEncode (edMul 256 (edSecret secret).1 edBase)

/-- The signature of a message by a secret. -/
def edSign (secret msg : List Byte) : List Byte :=
  let k := edSecret secret
  let pub := edPublic secret
  let r := edNat (sha512 (k.2 ++ msg)) % edL
  let rp := edEncode (edMul 256 r edBase)
  let h := edNat (sha512 (rp ++ pub ++ msg)) % edL
  rp ++ edBytes 32 ((r + h * k.1) % edL)

end Sys2Proof
end

