-- ==== Sys2Proof/Machine/Graph.lean ====
section
/-! DEFINITION. Graph control (group 0x0: R159 to R177). -/

namespace Sys2Proof.Machine

open Sys2Proof

/-- The records of the configuration that holds a station: those at the current addresses of its resident configuration
(R55, R71), or all records of the region where no resident configuration holds it. -/
def State.sameConfig (s : State) (c st : Nat) : Table RawRecord :=
  let r := s.region c
  let cur := fun (e : Resident) => e.addrs.map (fun a => r.moved.getD a a)
  match r.residents.find? (fun e => (cur e).contains st) with
  | some e => r.records.filter (fun x => (cur e).contains x.1)
  | none => r.records

/-- The COORD word of a cluster in its launch rectangle (R173). -/
def coordWord (k : Rect) (c : Nat) : Word :=
  (0 : BitVec 16) ++ BitVec.ofNat 2 k.lh ++ BitVec.ofNat 2 k.lw ++ BitVec.ofNat 3 (c / 8) ++ BitVec.ofNat 3 (c % 8)
    ++ BitVec.ofNat 3 (c / 8 - k.y0) ++ BitVec.ofNat 3 (c % 8 - k.x0)

/-- The wave of a WADV's result (R169). -/
def wadvTag (g b : Word) : Word := mkTag (tagCtx g) (tagWave g + b.extractLsb' 8 20) (tagSub g)

/-- The tag TAGWR gives (R175). -/
def tagwrTag (flags : BitVec 4) (g b : Word) : Word :=
  mkTag (tagCtx g) (if flags.getLsbD 1 then tagWave b else tagWave g) (if flags.getLsbD 0 then tagSub b else tagSub g)

/-- An EXIT of a block fires for wave g: it counts towards the exit count, and the wave closes when the count is reached
(R42, R170): WADVs that it stalled wait no more (R59), and the next open wave may issue (R222). A wave that has closed, and a block
without exits, count nothing. -/
def State.countExit (s : State) (c blk : Nat) (g : Word) : State :=
  let want := ((s.block? c blk).map (fun b => b.exits)).getD 0
  match s.wave? c blk g with
  | some w =>
    if want = 0 ∨ !w.isOpen then s
    else if w.exits + 1 = want then
      (((s.updWave c blk g (fun w => { w with exits := w.exits + 1, isOpen := false })).endWaits c).pumpBuffer c).dueEvent
        .waveCloseQuiescence { cluster := c, index := blk, tag := g }
    else s.updWave c blk g (fun w => { w with exits := w.exits + 1 })
  | none => s

/-- Whether a link word names a place that R82 accepts for a narrow token (R177); it follows the instruction of its address (R55). -/
def State.linkOk (s : State) (c st : Nat) (b : Word) : Bool :=
  b.getLsbD 15 && b.extractLsb' 16 16 == 0
    && acceptsAt (s.sameConfig c st) (s.resolve c (b.extractLsb' 0 13).toNat) (Port.ofBits (b.extractLsb' 13 2)) == some .narrow

/-- A purge request on its way to the sticky port that target 0 names, with the acknowledgement's target (R171). -/
def State.sendPurge (s : State) (r : Rec) : State :=
  s.sendToken s.cur.station
    { cluster := s.cur.cluster, station := r.t0.addr.toNat, port := r.t0.port, kind := .purge r.t1, value := .narrow 0,
      tag := s.cur.tag }

/-- ILLEGAL (R102): consumes its token and raises ILLEGAL with its tag. -/
def execIllegal (r : Rec) (s : State) : Host.Outcome State Fault Refusal :=
  firing 0x00 r (fun t => t.trapHere .illegal) s

/-- FAN (R161): one token to two targets. -/
def execFan (r : Rec) (s : State) : Host.Outcome State Fault Refusal :=
  firing 0x01 r (fun t => t.send r s.cur.a) s

/-- CONST (R162): the value of port B with the tag of port A. -/
def execConst (r : Rec) (s : State) : Host.Outcome State Fault Refusal :=
  firing 0x02 r (fun t => t.send r s.cur.b) s

/-- STEER (R163): a to target 0 when bit 0 of the predicate is 1, to target 1 otherwise. -/
def execSteer (r : Rec) (s : State) : Host.Outcome State Fault Refusal :=
  firing 0x03 r (fun t => t.emit (if s.cur.bw.getLsbD 0 then r.t0 else r.t1) s.cur.a) s

/-- SEL (R164): a when bit 0 of c is 1, b otherwise; both are consumed. -/
def execSel (r : Rec) (s : State) : Host.Outcome State Fault Refusal :=
  firing 0x04 r (fun t => t.send r (if s.cur.cw.getLsbD 0 then s.cur.a else s.cur.b)) s

/-- MERGE (R165): the token that fired to target 0, and its arm, 1 for port A, to target 1. -/
def execMerge (r : Rec) (s : State) : Host.Outcome State Fault Refusal :=
  firing 0x05 r (fun t =>
    if s.cur.port = .a then (t.emit r.t0 s.cur.a).emit r.t1 (.narrow 1)
    else (t.emit r.t0 s.cur.b).emit r.t1 (.narrow 0)) s

/-- WADV (R168, R169): a with its WAVE raised by DELTA. R43 and R44 withhold the firing in `State.withheld`. -/
def execWadv (r : Rec) (s : State) : Host.Outcome State Fault Refusal :=
  firing 0x06 r (fun t => t.sendTag r s.cur.a (wadvTag s.cur.tag s.cur.bw)) s

/-- EXIT (R170): passes its token and counts towards closing its wave. -/
def execExit (r : Rec) (s : State) : Host.Outcome State Fault Refusal :=
  firing 0x07 r (fun t => (t.send r s.cur.a).countExit s.cur.cluster r.block.toNat s.cur.tag) s

/-- GATE (R166): a passes when b has come. -/
def execGate (r : Rec) (s : State) : Host.Outcome State Fault Refusal :=
  firing 0x08 r (fun t => t.send r s.cur.a) s

/-- SINK (R167): consumes its token and sends nothing. -/
def execSink (r : Rec) (s : State) : Host.Outcome State Fault Refusal :=
  firing 0x09 r (fun t => t) s

/-- PURGE (R171): a purge request for CTX(g) to the sticky port that target 0 names. -/
def execPurge (r : Rec) (s : State) : Host.Outcome State Fault Refusal :=
  firing 0x0A r (fun t => t.sendPurge r) s

/-- COORD (R173): the cluster's place in the launch rectangle; in a context without one, its own cluster. -/
def execCoord (r : Rec) (s : State) : Host.Outcome State Fault Refusal :=
  firing 0x0B r (fun t =>
    let k := ((s.ctxAt s.cur.cluster (tagCtx s.cur.tag)).map (fun k => k.rect)).getD
      { x0 := s.cur.cluster % 8, y0 := s.cur.cluster / 8, lw := 0, lh := 0 }
    t.sendWord r (coordWord k s.cur.cluster)) s

/-- TAGRD (R174): the tag as a value. -/
def execTagrd (r : Rec) (s : State) : Host.Outcome State Fault Refusal :=
  firing 0x0C r (fun t => t.sendWord r s.cur.tag) s

/-- TAGWR (R175): a with a new WAVE, SUB or both. R44 withholds the firing in `State.withheld`. -/
def execTagwr (r : Rec) (s : State) : Host.Outcome State Fault Refusal :=
  firing 0x0D r (fun t => t.sendTag r s.cur.a (tagwrTag r.flags s.cur.tag s.cur.bw)) s

/-- CALL (R176): a to target 0 and the link word to target 1. -/
def execCall (r : Rec) (s : State) : Host.Outcome State Fault Refusal :=
  firing 0x0E r (fun t => (t.emit r.t0 s.cur.a).emit r.t1 s.cur.b) s

/-- RET (R177): a to the place the link word names; BAD_TARGET where R82 would not accept it. -/
def execRet (r : Rec) (s : State) : Host.Outcome State Fault Refusal :=
  firing 0x0F r (fun t =>
    if s.linkOk s.cur.cluster s.cur.station s.cur.bw then
      let k := Target.ofHalf (s.cur.bw.extractLsb' 0 16)
      t.emit { k with addr := BitVec.ofNat 13 (s.resolve s.cur.cluster k.addr.toNat) } s.cur.a
    else t.trapHere .badTarget) s

end Sys2Proof.Machine
end

