-- ==== Sys2Proof/Machine/Tile.lean ====
section
/-! DEFINITION. Tile and accumulator registers (R287 to R292), their order of readers and writers, and the tile instructions (0xE0 to
0xE9, R293 to R302). -/

namespace Sys2Proof.Machine

open Sys2Proof

/-! ## Registers (R287 to R289, R292) -/

/-- Whether a register number names an accumulator (R287). -/
def isAcc (reg : BitVec 7) : Bool := reg.getLsbD 6

/-- The accumulator number of a register number. -/
def accNumber (reg : BitVec 7) : Nat := reg.toNat - 0x40

/-- A tile of a cluster, and the state with it changed. -/
def State.tile (s : State) (c : Nat) (reg : BitVec 7) : Tile := (s.region c).tiles.getD reg.toNat {}

def State.updTile (s : State) (c : Nat) (reg : BitVec 7) (f : Tile → Tile) : State :=
  s.updRegion c (fun r => { r with tiles := r.tiles.set reg.toNat (f (r.tiles.getD reg.toNat {})) })

/-- An accumulator of a cluster, and the state with it changed. -/
def State.accum (s : State) (c : Nat) (reg : BitVec 7) : Acc := (s.region c).accs.getD (accNumber reg) {}

def State.updAccum (s : State) (c : Nat) (reg : BitVec 7) (f : Acc → Acc) : State :=
  s.updRegion c (fun r => { r with accs := r.accs.set (accNumber reg) (f (r.accs.getD (accNumber reg) {})) })

/-- The fields of a control word (R288, R289). -/
def ctrlRows (w : Word) : Nat := (w.extractLsb' 0 7).toNat + 1

def ctrlCols (w : Word) : Nat := (w.extractLsb' 7 8).toNat + 1

def ctrlFmt (w : Word) : Nat := (w.extractLsb' 16 4).toNat

def ctrlScle (w : Word) : Bool := w.getLsbD 15

def ctrlF64 (w : Word) : Bool := w.getLsbD 16

/-- Bits of an element of a tile format (R78, R269). -/
def elementBits (fmt : Nat) : Nat := 1024 / lanesOf fmt

/-- Bytes of an accumulator element (R289). -/
def accBytes (w : Word) : Nat := if ctrlF64 w then 8 else 4

/-- A legal control word of a tile (R288). -/
def tileWordOk (w : Word) : Bool :=
  let n := ctrlCols w * elementBits (ctrlFmt w)
  decide (ctrlFmt w ≤ 6) && decide (n ≤ 1024) && n % 8 == 0 && (!ctrlScle w || ctrlFmt w == 4 || ctrlFmt w == 5)

/-- A legal control word of an accumulator (R289). -/
def accWordOk (w : Word) : Bool :=
  decide (ctrlCols w ≤ 128) && decide (ctrlRows w * ctrlCols w * accBytes w ≤ 65536)

/-- The control word with its reserved bits as they read (R4, R288, R289). -/
def ctrlStored (reg : BitVec 7) (w : Word) : Word :=
  if isAcc reg then w &&& 0x00017FFF#32 else w &&& 0x000FFFFF#32

/-- Whether a tile's scale plane is in use (R292). -/
def ctrlScaled (w : Word) : Bool := ctrlFmt w == 6 || ctrlScle w

/-- Bytes of a row (R288, R298), and of the scale plane in use (R295). -/
def rowBytes (reg : BitVec 7) (w : Word) : Nat :=
  if isAcc reg then ctrlCols w * accBytes w else ctrlCols w * elementBits (ctrlFmt w) / 8

def planeBytes (w : Word) : Nat := ctrlRows w * ((ctrlCols w + 127) / 128)

/-- The control word of a register. -/
def State.ctrlOf (s : State) (c : Nat) (reg : BitVec 7) : Word :=
  if isAcc reg then (s.accum c reg).ctrl else (s.tile c reg).ctrl

/-- The full bit of a register, and the state with it changed. -/
def State.isFull (s : State) (c : Nat) (reg : BitVec 7) : Bool :=
  if isAcc reg then (s.accum c reg).full else (s.tile c reg).full

def State.setFull (s : State) (c : Nat) (full : Bool) (reg : BitVec 7) : State :=
  if isAcc reg then s.updAccum c reg (fun a => { a with full := full })
  else s.updTile c reg (fun t => { t with full := full })

/-- The code of element (r, c) of a tile's bytes (R140, R288). -/
def tileRaw (bytes : Bytes) (fmt r c : Nat) : Nat :=
  let w := elementBits fmt
  let at_ := 128 * r + c * w / 8
  if w = 4 then (bytes.get at_).toNat / 2 ^ (4 * (c % 2)) % 16 else natOfBytes (bytes.range at_ (w / 8))

/-- The scale byte of element (r, c) (R292). -/
def tileScale (plane : Bytes) (w : Word) (r c : Nat) : Nat :=
  (plane.get (r * ((ctrlCols w + 127) / 128) + c / 128)).toNat

/-- The value of element (r, c) of a tile, with its scale byte where asked (R141, R142, R305). -/
def tileElement (t : Tile) (scaled : Bool) (r c : Nat) : Exact :=
  let fmt := ctrlFmt t.ctrl
  let raw := tileRaw t.bytes fmt r c
  if fmt = 6 then q4Value raw (tileScale t.plane t.ctrl r c)
  else if scaled then e8m0Scaled (decodeFloat fmt raw) (tileScale t.plane t.ctrl r c)
  else decodeFloat fmt raw

/-- The code of element (r, c) of an accumulator (R289): rows one after another. -/
def accRaw (a : Acc) (r c : Nat) : Nat :=
  natOfBytes (a.bytes.range ((r * ctrlCols a.ctrl + c) * accBytes a.ctrl) (accBytes a.ctrl))

/-- The bytes of a tile row from its element codes. -/
def packRow (fmt : Nat) (codes : List Nat) : List Byte :=
  bytesOfNat (codes.length * elementBits fmt / 8) (joinLanes (elementBits fmt) codes)

/-- A tile's bytes from the element codes of its rows; everything beyond is zero. -/
def packRows (fmt : Nat) : Nat → List (List Nat) → Bytes → Bytes
  | _, [], b => b
  | r, row :: rest, b => packRows fmt (r + 1) rest (b.putRange (128 * r) (packRow fmt row))

/-! ## The order of register operations (R290, R291) -/

/-- The registers an operation names. -/
def RegOp.names (o : RegOp) : List (BitVec 7) := o.reads ++ o.writes

/-- Whether an operation is an MMA's. -/
def RegOp.isMma (o : RegOp) : Bool := match o.act with | .mma _ => true | _ => false

/-- The token of an MO's operation: the one in flight, or that at the head of its queue. -/
def Mo.token (m : Mo) : Option MoToken := match m.run with | some run => some run.token | none => m.queue.head?

/-- The port of the streamed operand of an MO's operation; none where B is a tile. -/
def State.streamPort (s : State) (c : Nat) (o : RegOp) : Option Nat :=
  match o.act with
  | .mma m =>
    match (s.mo c m).token with
    | some t => if t.word.getLsbD 3 then some (t.word.extractLsb' 8 6).toNat else none
    | none => none
  | _ => none

/-- Whether a waiting operation stands first among those that wait for a register. -/
def firstFor (before : List RegOp) (reg : BitVec 7) : Bool := before.all (fun o => o.begun || !o.names.contains reg)

/-- What becomes of a waiting operation now (R290, R291): it begins, it raises TILE_EMPTY, or it waits. -/
inductive Turn where
  | begin | empty | wait
  deriving DecidableEq, Repr

/-- The Landing room that copies of registers need before a speculation first writes them (R390). -/
def State.copyRoom (s : State) (c : Nat) (o : RegOp) : Bool :=
  match s.specOf c o.tag with
  | none => true
  | some (_, x) =>
    !x.heldOps.contains o.id &&
    let fresh := o.writes.map (fun reg =>
      if isAcc reg then (if x.accs.any (fun e => e.1 == c && e.2.1 == accNumber reg) then 0 else 513)
      else (if x.tiles.any (fun e => e.1 == c && e.2.1 == reg.toNat) then 0 else 131))
    decide (x.lines + fresh.sum ≤ 32768) && decide (s.landingOnDie (dieOf c) + fresh.sum ≤ 131072)

/-- Whether the MO of an MMA's operation can begin it: it runs none and the token is at the head of its queue, or it takes up the one that it
has put off (R303, R306). -/
def State.moFree (s : State) (c : Nat) (o : RegOp) : Bool :=
  match o.act with
  | .mma m =>
    let its := fun (t : MoToken) => t.tag == o.tag && t.word == o.a
    (match (s.mo c m).run with
     | some run => run.restored && o.reads.isEmpty && its run.token
     | none => (s.mo c m).queue.head?.any its)
  | _ => true

/-- Whether an activity may bring an operation of a lower station to the tile file in this cycle: a firing that can go, or a token at the head
of an MO's queue. Operations of one cycle go in ascending station address (R290). -/
def State.brings (s : State) (c st : Nat) (a : Activity) : Bool :=
  match a with
  | .fire d n g =>
    d == c && decide (n < st) && decide (0xE0 ≤ s.opAt c n) && decide (s.opAt c n ≤ 0xE9) && s.runs c g
      && s.matched c n (s.opAt c n) (s.recAt c n) g && !(s.region c).blocked.any (fun b => b.1 == n)
  | .control d m => d == c && decide (0x12C0 + m < st) && (s.mo c m).run.isNone && !(s.mo c m).queue.isEmpty
  | _ => false

/-- Whether an operation waits for the end of the cycle in which it reached the tile file. -/
def State.early (s : State) (c : Nat) (o : RegOp) : Bool := o.came == s.cycle && s.agenda.any (s.brings c o.station)

/-- An operation takes its place: after all that came before it, in ascending station address among those of its cycle (R290). -/
def insertOp (o : RegOp) : List RegOp → List RegOp
  | [] => [o]
  | x :: rest => if x.came = o.came ∧ !x.begun ∧ o.station < x.station then o :: x :: rest else x :: insertOp o rest

/-- An operation reaches the tile file. -/
def State.putOp (s : State) (c : Nat) (o : RegOp) : State :=
  s.updRegion c (fun r => { r with regOps := insertOp { o with came := s.cycle } r.regOps })

/-- The turn of an operation, but for the room of its copies, with the operations before and all operations of the tile file. An armed slot serves one MMA, in the order of a
register (assumption log 113). -/
def State.standing (s : State) (c : Nat) (before all : List RegOp) (o : RegOp) : Turn :=
  let slotEmpty := match s.streamPort c o with
    | some p => ((s.region c).slots.get? p).isNone
    | none => false
  let slotFirst := match s.streamPort c o with
    | some p => before.all (fun h => h.begun || s.streamPort c h != some p)
        && all.all (fun h => !h.begun || h.act == o.act || s.streamPort c h != some p)
    | none => true
  let slotBusy := match o.act with
    | .arm _ _ _ p _ => ((s.region c).slots.get? p).isSome
    | _ => false
  let held := fun (reg : BitVec 7) => all.any (fun h => h.begun && h.reads.contains reg)
  if o.begun then .wait
  else if o.isMma && (!s.runs c o.tag || !s.moFree c o) then .wait
  else if s.early c o then .wait
  else if o.fe && ((slotEmpty && slotFirst) || o.reads.any (fun reg => firstFor before reg && !s.isFull c reg)) then .empty
  else if o.names.all (fun reg => firstFor before reg && s.isFull c reg) && !slotEmpty && slotFirst && !slotBusy
      && !o.writes.any held then .begin
  else .wait

/-- The turn of an operation: one whose copies find no Landing room is held (R390). -/
def State.turn (s : State) (c : Nat) (before all : List RegOp) (o : RegOp) : Turn :=
  match s.standing c before all o with
  | .begin => if s.copyRoom c o then .begin else .wait
  | t => t

/-- The operations of a list that would begin but for the room of their copies. -/
def State.overLimit (s : State) (c : Nat) (all : List RegOp) : List RegOp → List RegOp → List RegOp
  | _, [] => []
  | before, o :: rest =>
    let more := s.overLimit c all (before ++ [o]) rest
    if s.standing c before all o = .begin ∧ !s.copyRoom c o then o :: more else more

/-- Operations that have found no Landing room stay held until the claim or the discard (R388, R390). -/
def State.noteOps (s : State) (c : Nat) : State :=
  let ops := (s.region c).regOps
  (s.overLimit c ops [] ops).foldl (fun s o =>
    match s.specOf c o.tag with
    | some (q, x) => if x.heldOps.contains o.id then s
        else s.updFerry q (fun f => { f with spec := some { x with heldOps := o.id :: x.heldOps } })
    | none => s) s

/-- The first operation of a list that does not wait, with its turn. -/
def State.firstTurn (s : State) (c : Nat) (all : List RegOp) : List RegOp → List RegOp → Option (RegOp × Turn)
  | _, [] => none
  | before, o :: rest =>
    match s.turn c before all o with
    | .wait => s.firstTurn c all (before ++ [o]) rest
    | t => some (o, t)

/-- Before a speculation first writes a register, the Ferry copies it (R390). -/
def State.copyRegisters (s : State) (c : Nat) (o : RegOp) : State :=
  match s.specOf c o.tag with
  | none => s
  | some (q, x) =>
    let y := o.writes.foldl (fun (x : Speculation) reg =>
      if isAcc reg then
        (if x.accs.any (fun e => e.1 == c && e.2.1 == accNumber reg) then x
         else { x with accs := x.accs ++ [(c, accNumber reg, s.accum c reg)] })
      else
        (if x.tiles.any (fun e => e.1 == c && e.2.1 == reg.toNat) then x
         else { x with tiles := x.tiles ++ [(c, reg.toNat, s.tile c reg)] })) x
    s.updFerry q (fun f => { f with spec := some y })

/-- A register operation looks for its turn again. -/
def State.kickRegisters (s : State) (c : Nat) : State := s.dueOnce (.event .registerOpBegin { cluster := c })

/-- An operation reaches the tile file: it waits its turn, and counts as a reply outstanding. FE stands in the layouts of a consume and a sticky
port A; in the others its bit is reserved (R85). -/
def State.enqueueReg (s : State) (reads writes : List (BitVec 7)) (r : Rec) (acquire release : Bool) (act : RegAct) :
    State :=
  let x := s.cur
  let o : RegOp := { id := s.nextId, station := x.station, tag := x.tag, reads := reads, writes := writes,
                     fe := r.a.fe && (r.a.act == .consume || r.a.act == .sticky), begun := false, release := release, acquire := acquire, act := act,
                     agen := 0, a := x.aw, b := x.bw }
  let s := { s with nextId := s.nextId + 1 }
  ((s.putOp x.cluster o).replyUp x.cluster x.tag).kickRegisters x.cluster

/-- An operation leaves the tile file: its readers let go, and what it writes is full. -/
def State.leaveReg (s : State) (c : Nat) (o : RegOp) : State :=
  let s := s.updRegion c (fun k => { k with regOps := k.regOps.filter (fun p => p.id != o.id) })
  (if o.begun then o.writes.foldl (fun s reg => s.setFull c true reg) s else s).kickRegisters c

/-- An operation leaves the tile file without a completion token: its reply no longer counts. -/
def State.endReg (s : State) (c : Nat) (o : RegOp) : State :=
  let s := s.leaveReg c o
  if o.isMma then s else s.replyDown c o.tag

/-- An operation completes with a value for both targets, which counts as outstanding until it is consumed (R217); a discarded
context's value is dropped (R419). -/
def State.finishReg (s : State) (c : Nat) (o : RegOp) (v : Value) : State :=
  match s.ctxAt c (tagCtx o.tag) with
  | some k => if k.killed then s.endReg c o else (s.leaveReg c o).answerTo c o.station o.id o.tag v v
  | none => s.endReg c o

/-- An operation ends in a trap and changes nothing. -/
def State.trapReg (s : State) (c : Nat) (o : RegOp) (t : Trap) : State :=
  (s.endReg c o).takeTrap t c o.station o.tag o.a o.b

/-! ## What operations do when they begin (R294 to R301) -/

/-- The source and destination of an operation on one or two registers. -/
def RegOp.dst (o : RegOp) : BitVec 7 := o.writes.headD 0

def RegOp.src (o : RegOp) : BitVec 7 := o.reads.headD o.dst

/-- The memory request of a TLD, TST, ZLD or ZST that begins; it shares the operation's number and its count. -/
def tileReq (c : Nat) (o : RegOp) (va : Dword) (load : Bool) : MemReq :=
  { id := o.id, cluster := c, station := o.station, tag := o.tag, va := va, size := 4, a := o.a, b := o.b,
    kind := if load then .tileLoad o.id else .tileStore o.id, acquire := o.acquire, release := o.release }

/-- The request leaves its port. -/
def State.startTile (s : State) (c : Nat) (o : RegOp) (va : Dword) (load : Bool) : State :=
  { s with reqs := s.reqs ++ [tileReq c o va load] }.dueEvent .pageWalk { id := o.id }

/-- The transposed tile (R300); none where R300 gives ILLEGAL. -/
def transposed (t : Tile) : Option (Word × Bytes) :=
  let fmt := ctrlFmt t.ctrl
  let rows := ctrlRows t.ctrl
  let cols := ctrlCols t.ctrl
  if ctrlScaled t.ctrl ∨ 1024 < rows * elementBits fmt then none
  else
    let w : Word := BitVec.ofNat 32 (fmt * 2 ^ 16 + (rows - 1) * 2 ^ 7 + (cols - 1))
    some (w, packRows fmt 0 ((List.range cols).map (fun j => (List.range rows).map (fun i => tileRaw t.bytes fmt i j))) [])

/-- The tile that ZCVT makes of an accumulator (R301); none where R301 gives ILLEGAL. -/
def convertedAcc (a : Acc) (fmt rnd : Nat) : Option (Word × Bytes) :=
  let rows := ctrlRows a.ctrl
  let cols := ctrlCols a.ctrl
  let src := if ctrlF64 a.ctrl then 3 else 0
  if 1024 < cols * elementBits fmt ∨ (fmt = 3 ∧ !ctrlF64 a.ctrl) then none
  else
    let w : Word := BitVec.ofNat 32 (fmt * 2 ^ 16 + (cols - 1) * 2 ^ 7 + (rows - 1))
    some (w, packRows fmt 0 ((List.range rows).map (fun i => (List.range cols).map (fun j =>
      (convertTo fmt rnd 0 (decodeFloat src (accRaw a i j))).1))) [])

/-- Whether a row word of TLD.tok or TST.tok names a row that the register has (R297). -/
def rowOk (w row : Word) : Bool :=
  let r := (row.extractLsb' 0 7).toNat
  if row.getLsbD 7 then decide (r ≤ 1) else decide (r < ctrlRows w)

/-- An operation that has begun acts (R294 to R301); an MMA acts elsewhere. -/
def State.actReg (s : State) (c : Nat) (o : RegOp) : State :=
  let zero : Value := .narrow 0
  match o.act with
  | .tcfg w =>
    let v := ctrlStored o.dst w
    let s := if isAcc o.dst then s.updAccum c o.dst (fun a => { a with ctrl := v })
      else s.updTile c o.dst (fun t => { t with ctrl := v })
    s.finishReg c o zero
  | .tld va _ _ scaled =>
    if ctrlScaled (s.ctrlOf c o.dst) && !scaled then s.trapReg c o .illegal
    else (s.updTile c o.dst (fun t => { t with bytes := [] })).startTile c o va true
  | .zld va _ => (s.updAccum c o.dst (fun a => { a with bytes := [] })).startTile c o va true
  | .tst va _ _ scaled =>
    if ctrlScaled (s.ctrlOf c o.src) && !scaled then s.trapReg c o .illegal else s.startTile c o va false
  | .zst va _ => s.startTile c o va false
  | .arm va scale stride port scaled =>
    if ctrlScaled (s.ctrlOf c o.src) && !scaled then s.trapReg c o .illegal
    else
    let slot : Slot := { station := o.station, tag := o.tag, va := va, scale := scale, stride := stride,
                         ctrl := s.ctrlOf c o.src }
    (s.updRegion c (fun k => { k with slots := k.slots.set port slot })).finishReg c o zero
  | .tldTok row v =>
    if !rowOk (s.ctrlOf c o.dst) row then s.trapReg c o .illegal
    else
      let at_ := 128 * (row.extractLsb' 0 7).toNat
      (s.updTile c o.dst (fun t =>
        if row.getLsbD 7 then { t with plane := t.plane.putRange at_ (wideBytes v) }
        else { t with bytes := t.bytes.putRange at_ (wideBytes v) })).finishReg c o zero
  | .tstTok row =>
    if !rowOk (s.ctrlOf c o.src) row then s.trapReg c o .illegal
    else
      let at_ := 128 * (row.extractLsb' 0 7).toNat
      let t := s.tile c o.src
      s.finishReg c o (.wide (wideOf ((if row.getLsbD 7 then t.plane else t.bytes).range at_ 128)))
  | .tzero => (s.updTile c o.dst (fun t => { t with bytes := [], plane := [] })).finishReg c o zero
  | .zzero => (s.updAccum c o.dst (fun a => { a with bytes := [] })).finishReg c o zero
  | .tmov =>
    let t := s.tile c o.src
    (s.updTile c o.dst (fun d => { d with ctrl := t.ctrl, bytes := t.bytes, plane := t.plane })).finishReg c o zero
  | .ttrn =>
    match transposed (s.tile c o.src) with
    | some (w, b) => (s.updTile c o.dst (fun d => { d with ctrl := w, bytes := b })).finishReg c o zero
    | none => s.trapReg c o .illegal
  | .zcvt fmt rnd =>
    match convertedAcc (s.accum c o.src) fmt.toNat rnd.toNat with
    | some (w, b) => (s.updTile c o.dst (fun d => { d with ctrl := w, bytes := b })).finishReg c o zero
    | none => s.trapReg c o .illegal
  | .mma _ => s

/-! ## Rows to and from memory (R295, R298) -/

/-- The address of a part of a transfer: row `r`, or the scale plane after the last row; with the bytes of that part. -/
def RegOp.part (o : RegOp) (w : Word) (r : Nat) : Dword × Nat :=
  let reg := if o.writes.isEmpty then o.src else o.dst
  match o.act with
  | .tld va scale stride _ | .tst va scale stride _ =>
    if r < ctrlRows w then (va + BitVec.ofNat 64 r * stride.signExtend 64, rowBytes reg w) else (scale, planeBytes w)
  | .zld va stride | .zst va stride => (va + BitVec.ofNat 64 r * stride.signExtend 64, rowBytes reg w)
  | _ => (0, 0)

/-- Parts of a transfer: the rows, and the scale plane where it is in use. -/
def partCount (reg : BitVec 7) (w : Word) : Nat := ctrlRows w + (if !isAcc reg && ctrlScaled w then 1 else 0)

/-- Where part `r` of a register stands in it, from an offset: a row of a tile at 128r, a row of an accumulator after the rows
before it. -/
def rowOffset (reg : BitVec 7) (w : Word) (r : Nat) : Nat := if isAcc reg then r * rowBytes reg w else 128 * r

/-- Bytes of part `r` of a register, and the state with them written. -/
def State.readPart (s : State) (c : Nat) (reg : BitVec 7) (w : Word) (r off n : Nat) : List Byte :=
  if isAcc reg then (s.accum c reg).bytes.range (rowOffset reg w r + off) n
  else if r < ctrlRows w then (s.tile c reg).bytes.range (rowOffset reg w r + off) n
  else (s.tile c reg).plane.range off n

def State.writePart (s : State) (c : Nat) (reg : BitVec 7) (w : Word) (r off : Nat) (b : List Byte) : State :=
  if isAcc reg then s.updAccum c reg (fun a => { a with bytes := a.bytes.putRange (rowOffset reg w r + off) b })
  else if r < ctrlRows w then s.updTile c reg (fun t => { t with bytes := t.bytes.putRange (rowOffset reg w r + off) b })
  else s.updTile c reg (fun t => { t with plane := t.plane.putRange off b })

/-- A register's transfer goes on by one access within a line (R295, R298). `agen` counts the parts done, `c` the bytes of the part
in hand. -/
def State.tilePart (s : State) (q : MemReq) (inPort : Bool) : State :=
  match (s.region q.cluster).regOps.find? (fun o => o.id == q.id) with
  | none => s.dropReq q.id
  | some o =>
    let load := !o.writes.isEmpty
    let reg := if load then o.dst else o.src
    let w := s.ctrlOf q.cluster reg
    let p := o.part w q.agen
    let off := q.c.toNat
    let va := (p.1 + BitVec.ofNat 64 off).toNat
    let n := min (p.2 - off) (128 - va % 128)
    match if off = 0 then s.splitWalk { q with va := p.1, size := p.2 } (!load) true else none with
    | some s => s
    | none =>
      match s.reach q va n (!load) inPort false with
      | .wait s => s
      | .here pa s =>
        let s := if load then
            let b := s.readReached q pa n
            b.2.writePart q.cluster reg w q.agen off b.1
          else s.writeReached q pa (s.readPart q.cluster reg w q.agen off n)
        if off + n < p.2 then (s.updReq q.id (fun q => { q with c := BitVec.ofNat 32 (off + n) })).retryReq q.id
        else if q.agen + 1 < partCount reg w then
          (s.updReq q.id (fun q => { q with agen := q.agen + 1, c := 0 })).retryReq q.id
        else if load then (s.dropReq q.id).dueEvent .tileWriteComplete { cluster := q.cluster, id := o.id }
        else (s.dropReq q.id).finishReg q.cluster o (.narrow 0)

/-- A register's transfer goes on; at a vault port an access that crosses a bank row goes on as the same access (R327). -/
def State.tileAccess (s : State) (q : MemReq) (inPort : Bool) : State :=
  let t := s.tilePart q inPort
  match t.req? q.id with
  | some r =>
    (match (t.region q.cluster).regOps.find? (fun o => o.id == q.id) with
     | some o =>
       let load := !o.writes.isEmpty
       let va := (o.part (t.ctrlOf q.cluster (if load then o.dst else o.src)) r.agen).1.toNat + r.c.toNat
       if inPort && rowStart va && r.stage == .issued && r.agen == q.agen && decide (q.c.toNat < r.c.toNat)
       then t.tilePart r true else t
     | none => t)
  | none => t

/-- TILE_WRITE_COMPLETE (R290, R295, R298): the last byte of a TLD or ZLD is written; its register is full and its completion token is
sent. -/
def execTileWriteComplete (s : State) : Host.Outcome State Fault Refusal :=
  let c := s.cur.cluster
  done (match (s.region c).regOps.find? (fun o => o.id == s.cur.id && o.begun) with
    | some o => s.finishReg c o (.narrow 0)
    | none => s)

/-! ## The instructions (R294 to R301) -/

/-- The one register of a form that stands on a memory port or on a sequencer (R287). -/
def regOf (st : Nat) (r : Rec) : BitVec 7 := if st < 0x1200 then r.reg else r.reg1

/-- TCFG (R294). -/
def execTcfg (r : Rec) (s : State) : Host.Outcome State Fault Refusal :=
  firing 0xE0 r (fun t =>
    let reg := regOf s.cur.station r
    if (if isAcc reg then accWordOk s.cur.aw else tileWordOk s.cur.aw) then
      t.enqueueReg [] [reg] r false false (.tcfg s.cur.aw)
    else t.trapHere .illegal) s

/-- The scale-plane address of the firing in hand (R295). -/
def State.scaleVa (s : State) (r : Rec) : Dword :=
  s.slotVa s.cur.cluster (baseSlot s.cur.station r s.cur.tag) (s.cur.cw.zeroExtend 64)

/-- A transfer of a tile: a scaled tile with port C unused raises ILLEGAL at the firing (R295, R298). -/
def State.tileTransfer (s : State) (r : Rec) (reads writes : List (BitVec 7)) (reg : BitVec 7) (acquire release : Bool)
    (act : RegAct) : State :=
  if ctrlScaled (s.ctrlOf s.cur.cluster reg) && !s.cur.hasC then s.trapHere .illegal
  else s.enqueueReg reads writes r acquire release act

/-- TLD (R295). -/
def execTld (r : Rec) (s : State) : Host.Outcome State Fault Refusal :=
  firing 0xE1 r (fun t =>
    t.tileTransfer r [] [r.reg] r.reg (r.flags.getLsbD 2) false
      (.tld (t.vaOf 0xE1 r) (t.scaleVa r) s.cur.bw s.cur.hasC)) s

/-- TLD.str (R296): arms the B-stream slot of its port. Whether the tile is scaled is seen when it begins. -/
def execTldStr (r : Rec) (s : State) : Host.Outcome State Fault Refusal :=
  firing 0xE1 r (fun t =>
    t.enqueueReg [r.reg] [] r (r.flags.getLsbD 2) false
      (.arm (t.vaOf 0xE1 r) (t.scaleVa r) s.cur.bw (portOf s.cur.station) s.cur.hasC)) s

/-- TLD.tok (R297): one row from the wide network. -/
def execTldTok (r : Rec) (s : State) : Host.Outcome State Fault Refusal :=
  firing 0xE1 r (fun t =>
    if s.cur.bw.extractLsb' 8 24 = 0 then
      t.enqueueReg [] [r.reg] r (r.flags.getLsbD 2) false (.tldTok s.cur.bw s.cur.a.bits)
    else t.trapHere .illegal) s

/-- TST (R298). -/
def execTst (r : Rec) (s : State) : Host.Outcome State Fault Refusal :=
  firing 0xE2 r (fun t =>
    t.tileTransfer r [r.reg] [] r.reg false (r.flags.getLsbD 2)
      (.tst (t.vaOf 0xE2 r) (t.scaleVa r) s.cur.bw s.cur.hasC)) s

/-- TST.tok (R297): one row to the wide network. -/
def execTstTok (r : Rec) (s : State) : Host.Outcome State Fault Refusal :=
  firing 0xE2 r (fun t =>
    if s.cur.bw.extractLsb' 8 24 = 0 then
      t.enqueueReg [r.reg] [] r false (r.flags.getLsbD 2) (.tstTok s.cur.bw)
    else t.trapHere .illegal) s

/-- TZERO (R299). -/
def execTzero (r : Rec) (s : State) : Host.Outcome State Fault Refusal :=
  firing 0xE3 r (fun t => t.enqueueReg [] [regOf s.cur.station r] r false false .tzero) s

/-- TMOV (R300). -/
def execTmov (r : Rec) (s : State) : Host.Outcome State Fault Refusal :=
  firing 0xE4 r (fun t => t.enqueueReg [r.reg1] [r.reg2] r false false .tmov) s

/-- TTRN (R300). -/
def execTtrn (r : Rec) (s : State) : Host.Outcome State Fault Refusal :=
  firing 0xE5 r (fun t => t.enqueueReg [r.reg1] [r.reg2] r false false .ttrn) s

/-- ZLD (R298). -/
def execZld (r : Rec) (s : State) : Host.Outcome State Fault Refusal :=
  firing 0xE6 r (fun t => t.enqueueReg [] [r.reg] r (r.flags.getLsbD 2) false (.zld (t.vaOf 0xE6 r) s.cur.bw)) s

/-- ZST (R298). -/
def execZst (r : Rec) (s : State) : Host.Outcome State Fault Refusal :=
  firing 0xE7 r (fun t => t.enqueueReg [r.reg] [] r false (r.flags.getLsbD 2) (.zst (t.vaOf 0xE7 r) s.cur.bw)) s

/-- ZZERO (R299). -/
def execZzero (r : Rec) (s : State) : Host.Outcome State Fault Refusal :=
  firing 0xE8 r (fun t => t.enqueueReg [] [regOf s.cur.station r] r false false .zzero) s

/-- ZCVT (R301). -/
def execZcvt (r : Rec) (s : State) : Host.Outcome State Fault Refusal :=
  firing 0xE9 r (fun t =>
    t.enqueueReg [r.reg1] [r.reg2] r false false (.zcvt r.fmt (BitVec.ofNat 4 r.rnd))) s

end Sys2Proof.Machine
end

