-- ==== Sys2Proof/Machine/Matrix.lean ====
section
/-! DEFINITION. Matrix operators (R100, R101, R303 to R306, R311): the beginning of register operations and of MMAs, the streamed
operand, the paired operation, the result and its completion. -/

namespace Sys2Proof.Machine

open Sys2Proof

/-! ## Control tokens at the head of a queue (R101, R303) -/

/-- The checks of R101 that the fields of a token decide. -/
def ctlOk (t : Ctl) : Bool :=
  decide (t.zidx.toNat ≤ 15) && decide (t.atile.toNat ≤ 47) && decide (t.btile.toNat ≤ if t.bstr then 31 else 47)
    && decide (t.scl.toNat ≤ 2)

/-- The station address of an MO's control port (R75). -/
def moPort (m : Nat) : Nat := 0x12C0 + m

/-- The next token of an MO comes to the head of its queue (R303). -/
def State.nextControl (s : State) (c m : Nat) : State :=
  if (s.mo c m).queue.isEmpty then s else s.dueOnce (.control c m)

/-- The token at the head of an MO's queue is consumed without a completion token. -/
def State.dropControl (s : State) (c m : Nat) : State :=
  match (s.mo c m).queue with
  | t :: rest =>
    (((s.updMo c m (fun o => { o with queue := rest })).spend c t.tag t.reply).freeCredit c (moPort m * 8) t.tag).nextControl c m
  | [] => s

/-- A trap of an MO with the tag and word of its token. -/
def State.trapMo (s : State) (c m : Nat) (t : Trap) (g w : Word) : State := s.takeTrap t c (moPort m) g w 0

/-- A token that passes the checks of R101 waits for its registers: reader of its tiles, writer of its accumulator (R290, R303). -/
def State.queueMma (s : State) (t : Ctl) (paired : Bool) : State :=
  let x := s.cur
  let busy := (s.mo x.cluster x.id).run.isSome || (s.region x.cluster).regOps.any (fun o => o.act == .mma x.id)
  if busy then s
  else if !ctlOk t || (paired && x.pair.isNone) then
    (s.dropControl x.cluster x.id).trapMo x.cluster x.id .illegal x.tag x.word
  else
    let a : BitVec 7 := t.atile.zeroExtend 7
    let b : BitVec 7 := t.btile.zeroExtend 7
    let z : BitVec 7 := 0x40 ||| t.zidx.zeroExtend 7
    let o : RegOp := { id := s.nextId, station := moPort x.id, tag := x.tag, reads := if t.bstr then [a] else [a, b],
                       writes := [z], fe := (s.recAt x.cluster (moPort x.id)).a.fe, begun := false, release := false,
                       acquire := false, act := .mma x.id, agen := 0, a := x.word, b := 0 }
    ({ s with nextId := s.nextId + 1 }.putOp x.cluster o).kickRegisters x.cluster

/-- MMA (R101, R303). -/
def execMma (t : Ctl) (s : State) : Host.Outcome State Fault Refusal := done (s.queueMma t false)

/-- MMAP (R101, R303, R311): a token that no MPAIR sent raises ILLEGAL. -/
def execMmap (t : Ctl) (s : State) : Host.Outcome State Fault Refusal := done (s.queueMma t true)

/-! ## Legality and result (R150, R304, R305) -/

/-- The fields of a control token's word (R100). -/
def ctlFields (w : Word) : Ctl :=
  { zidx := w.extractLsb' 20 6, atile := w.extractLsb' 14 6, btile := w.extractLsb' 8 6, acc := w.getLsbD 7,
    tra := w.getLsbD 6, trb := w.getLsbD 5, sat := w.getLsbD 4, bstr := w.getLsbD 3, scl := w.extractLsb' 0 3 }

/-- Whether a token's word is an MMAP (R100). -/
def isMmap (w : Word) : Bool := w.extractLsb' 26 6 == 2

/-- The effective shape of an operand: rows × cols, exchanged where it is transposed (R304). -/
def effectiveShape (w : Word) (tr : Bool) : Nat × Nat :=
  if tr then (ctrlCols w, ctrlRows w) else (ctrlRows w, ctrlCols w)

/-- The SCL that the tiles ask for (R304). -/
def wantedScl (a b : Word) : Nat :=
  if ctrlFmt a = 6 then 1
  else if isFp8 (ctrlFmt a) && isFp8 (ctrlFmt b) && ctrlScle a && ctrlScle b then 2 else 0

/-- A legal MMA, by the control words of A, B and Z (R304). -/
def mmaLegal (t : Ctl) (a b z : Word) : Bool :=
  let m := effectiveShape a t.tra
  let n := effectiveShape b t.trb
  (ctrlFmt a == ctrlFmt b || (isFp8 (ctrlFmt a) && isFp8 (ctrlFmt b))) && (ctrlF64 z == (ctrlFmt a == 3))
    && m.2 == n.1 && ctrlRows z == m.1 && ctrlCols z == n.2 && t.scl.toNat == wantedScl a b

/-- Element (i, k) of an operand (R305). -/
def operandElement (x : Tile) (tr scaled : Bool) (i k : Nat) : Exact :=
  if tr then tileElement x scaled k i else tileElement x scaled i k

/-- The products of one result element, over the k of one half, whose own token says how its tiles are read (R150, R305). -/
def productsOf (t : Ctl) (a b : Tile) (i j : Nat) : List Exact :=
  let scaled := t.scl != 0
  (List.range (effectiveShape a.ctrl t.tra).2).map (fun k =>
    (operandElement a t.tra scaled i k).mul (operandElement b t.trb scaled k j))

/-- The accumulator's bytes after an MMA over halves, each with its own token and operands, with `shadow` as acc (R150, R305, R311). -/
def mmaResult (t : Ctl) (halves : List (Ctl × Tile × Tile)) (shadow : Acc) : Bytes :=
  let w := shadow.ctrl
  let code := if ctrlF64 w then 3 else 0
  let len := chunkLength (ctrlFmt ((halves.map (fun h => h.2.1.ctrl)).headD 0))
  let cells := ((List.range (ctrlRows w)).map (fun i => (List.range (ctrlCols w)).map (fun j => (i, j)))).flatten
  cells.foldl (fun bytes (e : Nat × Nat) =>
    let ps := (halves.map (fun h => productsOf h.1 h.2.1 h.2.2 e.1 e.2)).flatten
    let v := chunkedSum code len t.sat ps.length ps (if t.acc then accRaw shadow e.1 e.2 else 0)
    bytes.putRange ((e.1 * ctrlCols w + e.2) * accBytes w) (bytesOfNat (accBytes w) v)) shadow.bytes

/-! ## The streamed operand (R296, R305, R306) -/

/-- Where the scale plane of a streamed operand stands among its bytes: after 128 rows. -/
def streamPlane : Nat := 16384

/-- The streamed operand as a tile. -/
def streamTile (ctrl : Word) (stream : Bytes) : Tile :=
  { ctrl := ctrl, bytes := stream.filter (fun e => decide (e.1 < streamPlane)),
    plane := (stream.filter (fun e => decide (streamPlane ≤ e.1))).map (fun e => (e.1 - streamPlane, e.2)) }

/-- The slot that the operation of an MO streams from. -/
def State.slotOf (s : State) (c : Nat) (t : Ctl) : Option Slot := (s.region c).slots.get? t.btile.toNat

/-- Operand B of an operation in flight (R305). -/
def State.operandB (s : State) (c : Nat) (t : Ctl) (run : MoRun) : Tile :=
  if t.bstr then streamTile (((s.slotOf c t).map (fun k => k.ctrl)).getD 0) run.stream
  else s.tile c (t.btile.zeroExtend 7)

/-- Operand A of an operation. -/
def State.operandA (s : State) (c : Nat) (t : Ctl) : Tile := s.tile c (t.atile.zeroExtend 7)

/-- The partner's cluster of a half, by the offsets of its MPAIR (R310). -/
def offsetCluster (c : Nat) (d : BitVec 8) : Int × Int :=
  ((c % 8 : Nat) + (d.extractLsb' 4 4).toInt, (c / 8 : Nat) + (d.extractLsb' 0 4).toInt)

/-- The offsets that point back (R310). -/
def offsetsBack (d : BitVec 8) : BitVec 8 := (-(d.extractLsb' 4 4)) ++ (-(d.extractLsb' 0 4))

/-- The cluster of a position. -/
def clusterAt (p : Int × Int) : Nat := (p.2 * 8 + p.1).toNat

/-- An operation whose operands are at hand goes on: an MMA to its result; the half of a pair stands in the pair buffer and its
operands go to the partner's cluster, as export traffic (R305, R311). -/
def State.operandsReady (s : State) (c m : Nat) : State :=
  match (s.mo c m).run with
  | none => s
  | some run =>
    match run.token.pair with
    | some (st, d) =>
      if isMmap run.token.word then
        let s := s.updMo c m (fun o => { o with run := some { run with partner := true } })
        (s.exportUp c run.token.tag).dueEvent .mmapPartnerArrival
          { cluster := clusterAt (offsetCluster c d), index := c, id := m, station := st, tag := run.token.tag,
            pair := some (st, d) }
      else s.dueEvent .mmaComplete { cluster := c, id := m, index := run.opId }
    | none => s.dueEvent .mmaComplete { cluster := c, id := m, index := run.opId }

/-- The request that reads a streamed operand. -/
def streamReq (s : State) (c m : Nat) (run : MoRun) (k : Slot) : MemReq :=
  { id := s.nextId, cluster := c, station := moPort m, tag := run.token.tag, kind := .streamRead m, va := k.va,
    a := run.token.word }

/-- An operation begins to gather its operands: a streamed B is read now (R305). -/
def State.gather (s : State) (c m : Nat) : State :=
  match (s.mo c m).run with
  | none => s
  | some run =>
    let t := ctlFields run.token.word
    if t.bstr then
      match s.slotOf c t with
      | some k =>
        let q := streamReq s c m run k
        (s.addReq q).dueEvent .pageWalk { id := q.id }
      | none => s
    else s.operandsReady c m

/-- Where the part of a streamed operand stands that a request has come to: its address and size, and where its bytes go. -/
def Slot.part (k : Slot) (q : MemReq) : Dword × Nat × Nat :=
  if q.agen < ctrlRows k.ctrl then (k.va + BitVec.ofNat 64 q.agen * k.stride.signExtend 64, rowBytes 0 k.ctrl, 128 * q.agen)
  else (k.scale, planeBytes k.ctrl, streamPlane)

/-- The streamed read of an MO goes on by one access within a line; `agen` counts the rows, which may cross pages of any attributes (R305,
R312). -/
def State.streamPart (s : State) (q : MemReq) (m : Nat) (inPort : Bool) : State :=
  match (s.mo q.cluster m).run with
  | none => s.endReq q
  | some run =>
    match s.slotOf q.cluster (ctlFields run.token.word) with
    | none => s.endReq q
    | some k =>
      let p := k.part q
      let size := p.2.1
      let off := q.c.toNat
      let va := (p.1 + BitVec.ofNat 64 off).toNat
      let n := min (size - off) (128 - va % 128)
      match if off = 0 then s.splitWalk { q with va := p.1, size := size } false false else none with
      | some s => s
      | none =>
        match s.reach q va n false inPort false with
        | .wait s => s
        | .here pa s =>
          let b := s.readReached q pa n
          let s := b.2.updMo q.cluster m (fun o =>
            { o with run := some { run with stream := run.stream.putRange (p.2.2 + off) b.1, rows := q.agen } })
          if off + n < size then (s.updReq q.id (fun q => { q with c := BitVec.ofNat 32 (off + n) })).retryReq q.id
          else if q.agen + 1 < partCount 0 k.ctrl then
            (s.updReq q.id (fun q => { q with agen := q.agen + 1, c := 0 })).retryReq q.id
          else (s.endReq q).operandsReady q.cluster m

/-- The streamed read of an MO goes on; at a vault port an access that crosses a bank row goes on as the same access (R327). -/
def State.streamAccess (s : State) (q : MemReq) (m : Nat) (inPort : Bool) : State :=
  let t := s.streamPart q m inPort
  match t.req? q.id, ((t.mo q.cluster m).run).bind (fun run => t.slotOf q.cluster (ctlFields run.token.word)) with
  | some r, some k =>
    if inPort && rowStart ((k.part r).1.toNat + r.c.toNat) && r.stage == .issued && r.agen == q.agen && decide (q.c.toNat < r.c.toNat)
    then t.streamPart r m true else t
  | _, _ => t

/-! ## Putting off and beginning again (R306, R311, R416) -/

/-- The accumulator of an operation. -/
def MoRun.z (run : MoRun) : BitVec 7 := 0x40 ||| (run.token.word.extractLsb' 20 6).zeroExtend 7

/-- The reads of an MO's streamed operand end. -/
def State.endStream (s : State) (c m : Nat) : State :=
  let mine := s.reqs.filter (fun q => q.cluster == c && q.kind == .streamRead m)
  let ids := mine.map (fun q => q.id)
  let s := mine.foldl (fun s q => s.endReq q) s
  { s with spanReqs := s.spanReqs.filter (fun e => !ids.contains e.id) }

/-- The operation in flight of an MO is put off: Z is restored from the shadow, full, and free for others; its tiles and slot stay held, and
what it has read of a streamed operand goes (R306). -/
def State.putOff (s : State) (c m : Nat) (t : Option Trap) : State :=
  match (s.mo c m).run with
  | none => s
  | some run =>
    let s := (s.endStream c m).updMo c m (fun o =>
      { o with run := some { run with restored := true, faulted := t, stream := [], partner := false } })
    if run.restored then s
    else
      ((s.updAccum c run.z (fun _ => run.shadow)).updRegion c (fun r =>
        { r with regOps := r.regOps.map (fun o => if o.id = run.opId then { o with writes := [] } else o) })).kickRegisters c

/-- The operation that an MO has put off waits for its accumulator again (R290, R306). -/
def State.beginAgain (s : State) (c m : Nat) : State :=
  match (s.mo c m).run with
  | none => s
  | some run =>
    if !run.restored || (s.region c).regOps.any (fun o => !o.begun && o.act == .mma m) then s
    else
      let o : RegOp := { id := s.nextId, station := moPort m, tag := run.token.tag, reads := [], writes := [run.z], fe := false, begun := false,
                         release := false, acquire := false, act := .mma m, agen := 0, a := run.token.word, b := 0 }
      let s := s.updMo c m (fun o => { o with run := some { run with faulted := none } })
      ({ s with nextId := s.nextId + 1 }.putOp c o).kickRegisters c

/-- The MO of a cluster that runs the other half of a pair: the same station, tag and offsets that point back, in the same context
(R310). -/
def State.partnerMo (s : State) (c st : Nat) (g : Word) (d : BitVec 8) : Option (Nat × MoRun) :=
  ((s.region c).mos.filterMap (fun e =>
    match e.2.run with
    | some run => if isMmap run.token.word && run.token.tag == g && run.token.pair == some (st, offsetsBack d)
        then some (e.1, run) else none
    | none => none)).head?

/-- The cluster and MO of the other half of an MO's operation, where it has begun (R311). -/
def State.otherHalf (s : State) (c : Nat) (t : MoToken) : Option (Nat × Nat) :=
  match t.pair with
  | some (st, d) =>
    let p := clusterAt (offsetCluster c d)
    (s.partnerMo p st t.tag d).map (fun e => (p, e.1))
  | none => none

/-- An MO's operation is put off, and the other half of a pair with it (R306, R311). -/
def State.putOffBoth (s : State) (c m : Nat) (t : Option Trap) : State :=
  match (s.mo c m).run with
  | none => s
  | some run =>
    let s := s.putOff c m t
    match s.otherHalf c run.token with
    | some (d, n) => s.putOff d n none
    | none => s

/-- RETRY of a control port begins the token of its MO again, and the partner's half with it (R416). -/
def State.retryMo (s : State) (c m : Nat) : State :=
  match (s.mo c m).run with
  | none => s
  | some run =>
    let s := s.beginAgain c m
    match s.otherHalf c run.token with
    | some (d, n) => s.beginAgain d n
    | none => s

/-- MO_STREAM_FAULT (R306, R311, R412, R416): Z is restored, the operation keeps its token, tiles and slot, and the event is posted, in a
speculation at its claim (R389); both halves of a pair are to begin again. -/
def execMoStreamFault (s : State) : Host.Outcome State Fault Refusal :=
  let x := s.cur
  done (
    match s.req? x.id, (s.mo x.cluster x.index).run with
    | some q, some run =>
      match q.stage, s.ctxAt q.cluster (tagCtx q.tag) with
      | .held t, some k =>
        let s := s.putOffBoth x.cluster x.index (some t)
        if k.spec then s
        else s.trapEvent k t x.cluster (moPort x.index) q.tag run.token.word 0 (x.amount.getD 0) q.agen (q.kindCode x.go) []
      | _, _ => s
    | _, _ => s)

/-! ## Beginning, completing (R290, R304 to R306) -/

/-- The register operation of an MO that has begun. -/
def State.moOp (s : State) (c : Nat) (id : Nat) : Option RegOp := (s.region c).regOps.find? (fun o => o.id == id)

/-- An operation that was put off has its accumulator again: its token is at the head of the queue, and its tiles are those it holds. -/
def State.takeUp (s : State) (c m : Nat) (o : RegOp) : RegOp × State :=
  match (s.mo c m).run with
  | none => (o, s)
  | some run =>
    let b := { o with reads := ((s.moOp c run.opId).map (fun h => h.reads)).getD [] }
    (b, (s.updMo c m (fun k => { queue := run.token :: k.queue, run := none })).updRegion c (fun r =>
      { r with inUse := r.inUse.set (moPort m * 8) (r.inUse.getD (moPort m * 8) 0 + 1)
               regOps := (r.regOps.filter (fun h => h.id != run.opId)).map (fun h => if h.id = o.id then b else h) }))

/-- An MMA begins: legal under R304, or ILLEGAL with nothing changed. Its token leaves the queue and stays counted in flight. -/
def State.beginMma (s : State) (c m : Nat) (o : RegOp) (shadow : Acc) : State :=
  let e := s.takeUp c m o
  let o := e.1
  let s := e.2
  match (s.mo c m).queue with
  | [] => s.endReg c o
  | t :: rest =>
    let f := ctlFields t.word
    let b := if f.bstr then ((s.slotOf c f).map (fun k => k.ctrl)).getD 0 else (s.tile c (f.btile.zeroExtend 7)).ctrl
    if !mmaLegal f (s.operandA c f).ctrl b shadow.ctrl then
      ((s.endReg c o).dropControl c m).trapMo c m .illegal t.tag t.word
    else
      let run : MoRun := { token := t, opId := o.id, shadow := shadow, partner := false, faulted := none, stream := [], rows := 0 }
      ((s.updMo c m (fun _ => { queue := rest, run := some run })).freeCredit c (moPort m * 8) t.tag).gather c m

/-- An operation begins: its destinations are empty until it completes, and it holds what it reads (R290). -/
def State.beginReg (s : State) (c : Nat) (o : RegOp) : State :=
  let s := s.copyRegisters c o
  let shadow := { s.accum c o.dst with full := true }
  let b := { o with begun := true }
  let s := s.updRegion c (fun k => { k with regOps := k.regOps.map (fun p => if p.id = o.id then b else p) })
  let s := o.writes.foldl (fun s reg => s.setFull c false reg) s
  match o.act with
  | .mma m => s.beginMma c m b shadow
  | _ => s.actReg c b

/-- REGISTER_OP_BEGIN (R290, R291): the first waiting operation of the tile file whose turn has come begins, or raises TILE_EMPTY. A
halted region begins nothing (R421). One that finds no Landing room for its copies is held from now on (R390). -/
def execRegisterOpBegin (s : State) : Host.Outcome State Fault Refusal :=
  let c := s.cur.cluster
  let s := s.noteOps c
  let ops := (s.region c).regOps
  done (
    if (s.region c).halted then s.kickRegisters c
    else match s.firstTurn c ops [] ops with
      | some (o, .empty) =>
        let s := s.endReg c o
        let s := match o.act with | .mma m => s.dropControl c m | _ => s
        s.takeTrap .tileEmpty c o.station o.tag o.a o.b
      | some (o, _) => (s.beginReg c o).kickRegisters c
      | none =>
        if ops.any (fun o => !o.begun && ((o.isMma && (!s.runs c o.tag || !s.moFree c o)) || s.early c o)) then s.kickRegisters c
        else s)

/-- An MO's operation ends with the accumulator's bytes, full; its tiles are let go and its slot is emptied (R296, R305). -/
def State.endMma (s : State) (c m : Nat) (run : MoRun) (z : Acc) : State :=
  let f := ctlFields run.token.word
  let s := s.updAccum c (0x40 ||| f.zidx.zeroExtend 7) (fun _ => z)
  let s := match s.moOp c run.opId with
    | some o => s.endReg c o
    | none => s
  let s := if f.bstr then s.updRegion c (fun k => { k with slots := k.slots.erase f.btile.toNat }) else s
  let s := (s.updMo c m (fun o => { o with run := none })).spend c run.token.tag run.token.reply
  (s.kickRegisters c).nextControl c m

/-- An operation completes: the control token itself goes to F1 of the control port record (R303). -/
def State.completeMma (s : State) (c m : Nat) (run : MoRun) (z : Bytes) : State :=
  let r := s.recAt c (moPort m)
  (s.emitTo c (moPort m) r.t0 (.narrow run.token.word) run.token.tag).endMma c m run { run.shadow with bytes := z }

/-- MMA_COMPLETE (R303, R305). -/
def execMmaComplete (s : State) : Host.Outcome State Fault Refusal :=
  let x := s.cur
  done (
    match (s.mo x.cluster x.id).run with
    | some run =>
      if run.opId = x.index ∧ !isMmap run.token.word then
        let t := ctlFields run.token.word
        s.completeMma x.cluster x.id run
          (mmaResult t [(t, s.operandA x.cluster t, s.operandB x.cluster t run)] run.shadow)
      else s
    | none => s)

/-- Whether two halves agree, and their k are multiples of the chunk length (R311). -/
def halvesAgree (t u : Ctl) (a b c d : Tile) (z y : Acc) : Bool :=
  let k := (effectiveShape a.ctrl t.tra).2
  let l := (effectiveShape c.ctrl u.tra).2
  ctrlRows z.ctrl == ctrlRows y.ctrl && ctrlCols z.ctrl == ctrlCols y.ctrl && ctrlFmt a.ctrl == ctrlFmt c.ctrl
    && ctrlFmt b.ctrl == ctrlFmt d.ctrl && t.scl == u.scl && t.acc == u.acc && t.sat == u.sat
    && k % chunkLength (ctrlFmt a.ctrl) == 0 && l % chunkLength (ctrlFmt c.ctrl) == 0

/-- Both halves of a pair at hand combine: each Z over both k, the lower cluster's first, or ILLEGAL in both (R311). -/
def State.combineHalves (s : State) (c m : Nat) (run : MoRun) (d n : Nat) (other : MoRun) : State :=
  let t := ctlFields run.token.word
  let u := ctlFields other.token.word
  let mine := (s.operandA c t, s.operandB c t run)
  let theirs := (s.operandA d u, s.operandB d u other)
  if halvesAgree t u mine.1 mine.2 theirs.1 theirs.2 run.shadow other.shadow then
    let both := if c < d then [(t, mine), (u, theirs)] else [(u, theirs), (t, mine)]
    let z := mmaResult t both run.shadow
    let y := mmaResult u both other.shadow
    (s.completeMma c m run z).completeMma d n other y
  else
    let s := (s.endMma c m run run.shadow).endMma d n other other.shadow
    (s.trapMo c m .illegal run.token.tag run.token.word).trapMo d n .illegal other.token.tag other.token.word

/-- MMAP_PARTNER_ARRIVAL (R311): the operands of a half reach the partner's cluster; once both halves have begun they combine. -/
def execMmapPartnerArrival (s : State) : Host.Outcome State Fault Refusal :=
  let x := s.cur
  done (
    match x.pair with
    | none => s
    | some (st, d) =>
      let s := s.exportDown x.index x.tag
      match (s.mo x.index x.id).run, s.partnerMo x.cluster st x.tag d with
      | some run, some (n, other) =>
        if run.partner ∧ other.partner ∧ run.token.tag = x.tag ∧ run.token.pair = some (st, d) then
          s.combineHalves x.index x.id run x.cluster n other
        else s
      | _, _ => s)

end Sys2Proof.Machine
end

