-- ==== Sys2Proof/Machine/Fabric.lean ====
section
/-! DEFINITION. The fabric between firings: tokens that arrive (R30 to R33, R171), the matching store and its spill (R39, R40), credits
(R36), arbiter weights (R37), deadlock probes (R58, R59), export ports (R50, R61, R62), the closing of waves (R42, R223) and migration
(R55, R417). -/

namespace Sys2Proof.Machine

open Sys2Proof

/-! ## The matching store (R39, R40) -/

/-- Whether an entry stands in the store of an element itself. -/
def MatchEntry.inStore (e : MatchEntry) (element : Nat) : Bool :=
  e.left.getD (elementOf e.station) == element && !e.spilled && e.queued.isNone

/-- The first entry of a kind changed. -/
def changeFirst (p : MatchEntry → Bool) (f : MatchEntry → MatchEntry) : List MatchEntry → List MatchEntry
  | [] => []
  | e :: rest => if p e then f e :: rest else e :: changeFirst p f rest

/-- The condition that the entry to spill meets: the oldest non-sticky one, or a sticky one where every entry is sticky (R39). -/
def Region.spillable (r : Region) (element : Nat) (keep e : MatchEntry → Bool) : Option MatchEntry :=
  let mine := r.store.filter (fun m => m.inStore element)
  match mine.find? (fun m => !m.sticky && !keep m && e m) with
  | some m => some m
  | none => if mine.all (fun m => m.sticky) then mine.find? (fun m => !keep m && e m) else none

/-- An entry of an element free for one more token: by a spill where the store is full; none where nothing can be spilled or the
overflow area has no slot (R39, R40). PERF counter 1 counts a spill (R210). -/
def Region.makeRoom (r : Region) (element : Nat) (keep : MatchEntry → Bool) : Option Region :=
  if (r.store.filter (fun m => m.inStore element)).length < storeSize element then some r
  else match r.spillable element keep (fun _ => true) with
    | some v =>
      if r.overflowBytes + v.slotBytes ≤ 2 ^ 21 then
        some ({ r with store := changeFirst (fun m => m == v) (fun m => { m with spilled := true }) r.store }.count 1 1)
      else none
    | none => none

/-- Whether a stored entry goes with a token that arrives: its station and tag, or its context where one of the two is sticky
(R39). -/
def MatchEntry.goesWith (m : MatchEntry) (st : Nat) (g : Word) (sticky : Bool) : Bool :=
  m.station == st && (m.tag == g || ((m.sticky || sticky) && tagCtx m.tag == tagCtx g))

/-- An entry that is spilled, or that the element of a moved instruction's old station still holds, takes a place in the store of its
station's element, where there is room (R39, R55). -/
def Region.takeIn (r : Region) (element : Nat) (keep : MatchEntry → Bool) (m : MatchEntry) : Region :=
  match r.makeRoom element keep with
  | some r => { r with store := changeFirst (fun e => e == m) (fun e => { e with spilled := false, left := none }) r.store }
  | none => r

/-- Spilled entries, and entries that stand at the old element of a moved instruction, come to the element of their station when a
token meets them (R39, R55). -/
def Region.bringBack (r : Region) (element st : Nat) (g : Word) (sticky : Bool) : Region :=
  (r.store.filter (fun m => (m.spilled || m.left.isSome) && m.goesWith st g sticky)).foldl
    (fun r m => r.takeIn element (fun e => e.goesWith st g sticky) m) r

/-- A token takes its place in the matching store of its element; none while the element stalls (R39, R40). A sticky token replaces the
one of its context at its port (R32). -/
def State.placeEntry (s : State) (c : Nat) (e : MatchEntry) : Option State :=
  let element := elementOf e.station
  let r := s.region c
  let r := if e.sticky then
      { r with store := r.store.filter (fun m =>
          !(m.station == e.station && m.port == e.port && m.sticky && tagCtx m.tag == tagCtx e.tag)) }
    else r
  let r := r.bringBack element e.station e.tag e.sticky
  (r.makeRoom element (fun _ => false)).map (fun r =>
    (s.updRegion c (fun _ => { r with store := r.store ++ [e] })).slotsFreed c (s.overflowOf c))

/-- OVERFLOW_SLOT_FREED (R40): a slot of the overflow area has freed, and the elements of the region take tokens again. -/
def execOverflowSlotFreed (s : State) : Host.Outcome State Fault Refusal :=
  done (s.updRegion s.cur.cluster (fun r => { r with stalled := [] }))

/-! ## Arrival (R31 to R33, R36, R171) -/

/-- The tags that wait at a station in a context. -/
def State.waitingTags (s : State) (c st : Nat) (x : BitVec 8) : List Word :=
  (((s.region c).store.filter (fun e => e.station == st && !e.sticky && tagCtx e.tag == x)).map (fun e => e.tag)).eraseDups

/-- A purge request acts at the port it names (R171). -/
def State.purgeAt (s : State) (c : Nat) (t : Token) (ack : Target) : State :=
  let hit := fun (e : MatchEntry) => e.station == t.station && e.port == t.port && e.sticky && tagCtx e.tag == tagCtx t.tag
  let had := (s.region c).store.any hit
  let used := s.overflowOf c
  let s := s.updRegion c (fun r => { r with store := r.store.filter (fun e => !hit e) })
  let s := (s.emitTo c t.station ack (.narrow (if had then 1 else 0)) t.tag).spend c t.tag t.reply
  s.slotsFreed c used

/-- Whether the firings of a station bring a new wave number into a thread: a WADV, or a TAGWR that writes WAVE (R44). -/
def bringsWave (op : Nat) (r : Rec) : Bool := op == 0x06 || (op == 0x0D && r.flags.getLsbD 1)

/-- The entry of a token that completes the operands of a WADV, or of a TAGWR that writes WAVE: it waits in its queue for the firing
(R36, R43, R44); none for any other token. -/
def State.queueEntry (s : State) (c key : Nat) (e : MatchEntry) : Option State :=
  let op := s.opAt c e.station
  let r := s.recAt c e.station
  if bringsWave op r && !e.sticky then
    let s := s.updRegion c (fun k => { k.bringBack (elementOf e.station) e.station e.tag false with
      store := (k.bringBack (elementOf e.station) e.station e.tag false).store ++ [{ e with queued := some key }] })
    if s.matched c e.station op r e.tag then some s else none
  else none

/-- A data token, or a request, leaves its queue for the matching store, or waits in it for its firing, and what it completes is due to
fire (R30 to R33, R36). -/
def State.storeToken (s : State) (c key : Nat) (t : Token) (request : Bool) : State :=
  let sticky := !request && s.actionAt c t.station t.port == .sticky
  let op := s.opAt c t.station
  let r := s.recAt c t.station
  let e : MatchEntry := { station := t.station, port := t.port, request := request, value := t.value, tag := t.tag,
                          sticky := sticky, spilled := false, reply := if sticky then none else t.reply, came := s.cycle }
  match s.queueEntry c key e with
  | some s => (s.askPulls c t.station op r t.tag).offer c t.station op r t.tag
  | none =>
    match s.placeEntry c e with
    | none =>
      (s.updRegion c (fun r => { r with stalled := (elementOf t.station :: r.stalled).eraseDups })).dueEvent .tokenArrival
        { cluster := c, token := t, index := key }
    | some s =>
      let s := s.freeCredit c key t.tag
      if sticky then
        (s.waitingTags c t.station (tagCtx t.tag)).foldl (fun s g => (s.askPulls c t.station op r g).offer c t.station op r g)
          (s.spend c t.tag t.reply)
      else (s.askPulls c t.station op r t.tag).offer c t.station op r t.tag

/-- A token reaches the station, or the fixed element, that it is addressed to. An element that stalls takes none (R40). -/
def State.deliver (s : State) (c key : Nat) (t : Token) : State :=
  match placeOf t.station with
  | .station _ =>
    if (s.region c).stalled.contains (elementOf t.station) then
      s.dueEvent .tokenArrival { cluster := c, token := t, index := key }
    else
    (match t.kind with
     | .purge ack => (s.purgeAt c t ack).freeCredit c key t.tag
     | .request => s.storeToken c key t true
     | _ => s.storeToken c key t false)
  | .moControl =>
    let m := t.station - 0x12C0
    let pair := match t.kind with | .paired st d => some (st, d) | _ => none
    (s.updMo c m (fun o => { o with queue := o.queue ++ [{ word := t.value.word, tag := t.tag, pair := pair, reply := t.reply }] })).dueOnce
      (.control c m)
  | .trigger => s.pushTrigger c (t.station - 0x13C0) t.value.word t.tag t.reply
  | .exportPort =>
    (((s.exportUp c t.tag).dueEvent .exportSend { cluster := c, station := t.station, token := { t with reply := none } }).spend c t.tag
      t.reply).freeCredit c key t.tag
  | _ => (s.spend c t.tag t.reply).freeCredit c key t.tag

/-- A stub sends a token of a queue on to the instruction's new station n: it stays in its queue until it holds a credit of the other
one (R36, R55). -/
def State.forwardToken (s : State) (c n key : Nat) (t : Token) : State :=
  let k := s.queueKey c n t.port
  let go := fun (s : State) => s.dueEvent .tokenArrival { cluster := c, token := { t with station := n }, index := k }
  if k = key then go s
  else if s.hasCredit c k then go ((s.takeCredit c n k).freeCredit c key t.tag)
  else s.dueEvent .tokenArrival { cluster := c, token := t, index := key }

/-- TOKEN_ARRIVAL (R30 to R33, R36, R39): a token reaches the end of its arc. A discarded context's token is dropped and counted down
(R419), and a stub sends it on (R55). -/
def execTokenArrival (s : State) : Host.Outcome State Fault Refusal :=
  let x := s.cur
  let t := x.token
  let gone := match s.ctxAt x.cluster (tagCtx t.tag) with
    | some k => k.killed
    | none => true
  done (
    if gone then (s.spend x.cluster t.tag t.reply).freeCredit x.cluster x.index t.tag
    else match (s.region x.cluster).stubs.get? t.station with
      | some n => s.forwardToken x.cluster n x.index t
      | none => s.deliver x.cluster x.index t)

/-- The station that a token addressed to a station of a cluster comes to: a stub sends it on (R55). -/
def State.placeNow (s : State) (c a : Nat) : Nat := (s.region c).stubs.getD a a

/-! ## Credits and weights (R36, R37) -/

/-- The token that waits for a credit of a queue of cluster d and leaves first, with the cluster it waits in: one of a station of the
cluster before one of an export port elsewhere, and the longest waiting of one cluster. The model's choice (log 119), where R36 names no
order among senders. -/
def State.waitingFor (s : State) (d key : Nat) : Option (Nat × Nat × Token) :=
  let first := fun (c : Nat) =>
    ((s.region c).blocked.find? (fun b => b.2.cluster == d && s.wantedKey b.1 b.2 == key)).map (fun b => (c, b))
  (d :: (s.regions.map (fun e => e.1)).filter (fun c => c != d)).findSome? first

/-- CREDIT_RETURN (R36, R61): the credit of a queue reaches a sender, and the first result that waits for it leaves. -/
def execCreditReturn (s : State) : Host.Outcome State Fault Refusal :=
  let x := s.cur
  let s := s.updCounts x.cluster (tagCtx x.tag) (fun k => { k with credits := k.credits - 1 })
  let s := s.updRegion x.cluster (fun r => { r with inUse := dropUse r.inUse [x.index] })
  done (
    match s.waitingFor x.cluster x.index with
    | some (c, b) => ((s.updRegion c (fun r => { r with blocked := r.blocked.erase b })).launchFrom c b.1 b.2).endWait c b.1
    | none => s)

/-- The weight for a number of tokens (R37). -/
def weightFor (n : Nat) : Nat := 1 + min 14 (n / 16)

/-- ARBITER_WEIGHT_UPDATE (R37): every 256 cycles each station's weight follows the tokens that entered its queues. -/
def execArbiterWeightUpdate (s : State) : Host.Outcome State Fault Refusal :=
  let x := s.cur
  let r := s.region x.cluster
  let idle := r.arb.all (fun e => e.2.entered == 0 && e.2.weight == 1)
  done (
    if s.cycle < r.arbSince + 256 then s.dueEvent .arbiterWeightUpdate x
    else
      let s := s.updRegion x.cluster (fun r =>
        { r with arb := r.arb.map (fun (e : Nat × Arb) => (e.1, { e.2 with weight := weightFor e.2.entered, entered := 0 })),
                 arbSince := s.cycle })
      if idle then s else s.dueEvent .arbiterWeightUpdate x)

/-! ## Deadlock probes (R58, R59) -/

/-- The earliest wave of a list (R29). -/
def earliestWave : List Wave → Option Wave
  | [] => none
  | w :: rest => some (rest.foldl earlierWave w)

/-- The earliest open wave that keeps a stalled WADV from firing (R43, R44, R58). -/
def State.keepingWave (s : State) (c st : Nat) (g : Word) : Option Wave :=
  let r := s.recAt c st
  let x := s.firingSite c st 0x06 r g
  let new := State.newWaveTag x 0x06 r
  let blk := (x.bw.extractLsb' 0 8).toNat
  let all := s.openWaves c (tagCtx new) (tagSub new)
  earliestWave (if s.windowAllows c blk new then all else all.filter (fun w => w.block == blk))

/-- The stations that hold a token of a tag (R58): in a matching store, an input queue or an MO or trigger queue, as a result that waits
for a credit, as an operation or expansion in progress, folded into a JOIN round, held by BRK, bound to a channel, or on its way to
them. -/
def State.tagHolders (s : State) (c : Nat) (g : Word) : List Nat :=
  let r := s.region c
  let all : List Nat := (r.store.filter (fun e => e.tag == g && !e.sticky)).map (fun e => e.station)
    ++ (r.blocked.filter (fun b => b.2.tag == g)).map (fun b => b.1)
    ++ (r.mos.filter (fun e => e.2.queue.any (fun t => t.tag == g)
        || (match e.2.run with | some m => m.token.tag == g | none => false))).map (fun e => moPort e.1)
    ++ (r.templates.filter (fun e => e.2.queue.any (fun t => t.tag == g))).map (fun e => 0x13C0 + e.1)
    ++ (r.rounds.filter (fun e => e.tag == g)).map (fun e => e.station)
    ++ (r.brkHeld.filter (fun e => e.2.1 == g)).map (fun e => e.1)
    ++ (r.expansions.filter (fun e => e.tag == g)).map (fun e => e.station)
    ++ (r.bindings.filter (fun e => e.2.tag == g && !e.2.flag)).map (fun e => e.1)
    ++ s.agenda.filterMap (fun a => match a with
      | .event .tokenArrival y => if y.cluster = c ∧ y.token.tag = g then some (s.placeNow c y.token.station) else none
      | _ => none)
  all.eraseDups

/-- The wait-for edges of a station, with the tag that waits (R58). -/
def State.waitEdges (s : State) (c st : Nat) : List (Nat × Word) :=
  ((s.region c).blocked.filter (fun b => b.1 == st && b.2.cluster == c)).map (fun b => (b.2.station, b.2.tag))
    ++ (s.agenda.filterMap (fun a =>
      match a with
      | .fire d a g =>
        if d = c ∧ a = st ∧ s.wadvStalled c st g then
          (s.keepingWave c st g).map (fun w => (s.tagHolders c w.tag).map (fun h => (h, g)))
        else none
      | _ => none)).flatten

/-- Whether a context sends probes: neither TRAPPED nor discarded (R59). -/
def State.probes (s : State) (c : Nat) (g : Word) : Bool :=
  match s.ctxAt c (tagCtx g) with | some k => !k.trapped && !k.killed | none => false

/-- One of the edges of a station, as the device chooses. -/
def State.chooseEdge (s : State) (edges : List (Nat × Word)) : Option (Nat × Word) :=
  edges[Config.probeEdge s.ticks % max 1 edges.length]?

/-- DEADLOCK_PROBE_SEND (R59): a station that has waited 65,536 cycles sends a probe along one of its edges, and again every 65,536
cycles while it waits. -/
def execDeadlockProbeSend (s : State) : Host.Outcome State Fault Refusal :=
  let x := s.cur
  let since : Nat := (s.region x.cluster).waits.getD x.station s.cycle
  done (
    if !s.isWaiting x.cluster x.station then s.endWait x.cluster x.station
    else if s.cycle < since + 65536 then s.dueEvent .deadlockProbeSend x
    else match s.chooseEdge ((s.waitEdges x.cluster x.station).filter (fun e => s.probes x.cluster e.2)) with
      | some e =>
        let s := s.updRegion x.cluster (fun r => { r with waits := r.waits.set x.station s.cycle })
        let p : Probe := { cluster := x.cluster, origin := x.station, list := [x.station], hops := 1 }
        ((s.flightUp x.cluster e.2).dueEvent .deadlockProbeArrival
          { cluster := x.cluster, station := e.1, tag := e.2, probe := p }).dueEvent .deadlockProbeSend x
      | none => s.dueEvent .deadlockProbeSend x)

/-! ## Export ports (R50, R61, R62) -/

/-- The cluster an export port's offsets lead to, where it lies in a rectangle (R50). -/
def exportTarget (k : Rect) (c : Nat) (w : RawRecord) : Option Nat :=
  let x : Int := (c % 8 : Nat) + w.offsets.1.toInt
  let y : Int := (c / 8 : Nat) + w.offsets.2.toInt
  if 0 ≤ x ∧ x < 8 ∧ 0 ≤ y ∧ y < 8 ∧ k.contains (y * 8 + x).toNat then some (y * 8 + x).toNat else none

/-- EXPORT_SEND (R36, R50, R81): the token crosses the mesh to the port's cluster and station, once it has a credit of the queue there;
outside the rectangle it raises BAD_TARGET and is discarded, and so it is, without a trap, where the port's target is not valid. -/
def execExportSend (s : State) : Host.Outcome State Fault Refusal :=
  let x := s.cur
  let w := s.raw x.cluster x.station
  let t := x.token
  done (
    match s.ctxAt x.cluster (tagCtx t.tag) with
    | none => s.exportDown x.cluster t.tag
    | some k =>
      if k.killed then s.exportDown x.cluster t.tag
      else match exportTarget k.rect x.cluster w with
        | none => (s.exportDown x.cluster t.tag).takeTrap .badTarget x.cluster x.station t.tag t.value.word 0
        | some d =>
          let target := Target.ofHalf w.f1
          if target.valid then
            s.launchExport x.cluster x.station { t with cluster := d, station := target.addr.toNat, port := target.port, kind := .data }
          else s.exportDown x.cluster t.tag)

/-- EXPORT_ARRIVAL (R62): the target cluster counts the token, which has an entry of its queue, and then acknowledges it. A discarded
context's token is dropped, and acknowledged too (R419). -/
def execExportArrival (s : State) : Host.Outcome State Fault Refusal :=
  let x := s.cur
  let t := x.token
  let gone := match s.ctxAt x.cluster (tagCtx t.tag) with
    | some k => k.killed
    | none => true
  let s :=
    if gone then s.freeCredit x.cluster x.id t.tag
    else ((s.flightUp x.cluster t.tag).enterBlock x.cluster (s.blockAt x.cluster (s.placeNow x.cluster t.station)) t.tag).dueEvent
      .tokenArrival { cluster := x.cluster, token := t, index := x.id }
  done (s.dueEvent .exportAck { cluster := x.index, tag := t.tag })

/-- EXPORT_ACK (R61, R62): the sender's export count falls. The acknowledgement of an XSEND record (R267) sends its completion token
as well. -/
def execExportAck (s : State) : Host.Outcome State Fault Refusal :=
  let x := s.cur
  done (
    if x.id = 0 then s.exportDown x.cluster x.tag
    else match s.spanOut.find? (fun e => e.id == x.id) with
      | some e =>
        let s := { s with spanOut := s.spanOut.filter (fun o => o.id != x.id) }
        let gone := match s.ctxAt e.cluster (tagCtx e.tag) with
          | some k => k.killed
          | none => true
        let r := s.recAt e.cluster e.station
        let s := if gone then s
          else (s.emitTo e.cluster e.station r.t0 (.narrow 0) e.tag).emitTo e.cluster e.station r.t1 (.narrow 0) e.tag
        s.exportDown e.cluster e.tag
      | none => s)

/-! ## The closing of waves (R42, R223) -/

/-- Whether something of a block and tag stands in a cluster or is on its way: a token in its stations, queues and stores or travelling
towards them, or a memory reply to it that is outstanding (R42). -/
def State.blockBusy (s : State) (c blk : Nat) (g : Word) : Bool :=
  let r := s.region c
  let inB := fun (a : Nat) => s.blockAt c a == blk
  r.store.any (fun e => e.tag == g && !e.sticky && inB e.station)
    || r.blocked.any (fun b => b.2.tag == g && (inB b.1 || (b.2.cluster == c && inB b.2.station)))
    || s.regions.any (fun e => e.1 != c && e.2.blocked.any (fun b =>
        b.2.cluster == c && b.2.tag == g && inB (s.resolve c b.2.station)))
    || s.agenda.any (fun a =>
      match a with
      | .event .tokenArrival y => y.cluster == c && y.token.tag == g && inB (s.placeNow c y.token.station)
      | .event .exportArrival y => y.cluster == c && y.token.tag == g && inB (s.placeNow c y.token.station)
      | .event .joinPartArrival y => y.id != 0 && y.part.dst == c && y.part.tag == g && inB y.part.station
      | _ => false)
    || r.mos.any (fun e => inB (moPort e.1)
        && (e.2.queue.any (fun t => t.tag == g) || (match e.2.run with | some m => m.token.tag == g | none => false)))
    || r.templates.any (fun e => inB (0x13C0 + e.1) && e.2.queue.any (fun t => t.tag == g))
    || r.rounds.any (fun e => e.tag == g && inB e.station)
    || r.brkHeld.any (fun e => e.2.1 == g && inB e.1)
    || r.expansions.any (fun e => e.tag == g && inB e.station)
    || r.bindings.any (fun e => e.2.tag == g && !e.2.flag && inB e.1)
    || r.regOps.any (fun o => o.tag == g && inB o.station)
    || s.reqs.any (fun q => q.cluster == c && q.tag == g && inB q.station)

/-- WAVE_CLOSE_QUIESCENCE (R42, R223): a wave of a block without exits closes once nothing of it is left, and its chain counts as
finished; the record of a closed wave goes once its chain has finished and nothing of it is left. The record of a wave that DRAIN
closed stays until its context ends (R212). -/
def execWaveCloseQuiescence (s : State) : Host.Outcome State Fault Refusal :=
  let x := s.cur
  let exits : Nat := ((s.block? x.cluster x.index).map (fun b => b.exits)).getD 0
  let again := s.dueEvent .waveCloseQuiescence x
  done (
    match s.wave? x.cluster x.index x.tag with
    | none => s
    | some w =>
      if w.drained then s
      else if (s.region x.cluster).halted || s.blockBusy x.cluster x.index x.tag then again
      else if w.isOpen then
        (if exits = 0 then
          ((again.updWave x.cluster x.index x.tag (fun w => { w with isOpen := false, finished := true })).endWaits
            x.cluster).pumpBuffer x.cluster
         else again)
      else if w.finished then
        s.updRegion x.cluster (fun r =>
          { r with waves := r.waves.filter (fun w => !(w.block == x.index && w.tag == x.tag)) })
      else again)

/-! ## Migration (R55, R417) -/

/-- The distance of two PE stations in the grid, 0 for other classes (R75, R417). -/
def gridHops (a b : Nat) : Nat :=
  let far := fun (m n : Nat) => (m - n) + (n - m)
  if a < 0x1000 ∧ b < 0x1000 then far (a / 4 % 32) (b / 4 % 32) + far (a / 128) (b / 128) else 0

/-- Whether an instruction of a region may move to a station: the station is empty, no stub, the home of no resident
configuration (R99), of the same class, and within 4 hops (R417). -/
def Region.canMove (r : Region) (a b : Nat) : Bool :=
  classOf? a == classOf? b && (lookup r.records b).isNone && (r.stubs.get? b).isNone
    && r.residents.all (fun e => !e.addrs.contains b) && decide (gridHops a b ≤ 4)

/-- A station address in a record follows a move: targets and pull producers (R55). -/
def retarget (a b : Nat) (cls : Class) (w : RawRecord) : RawRecord :=
  let onTarget := fun (h : Half) =>
    let t := Target.ofHalf h
    if t.valid ∧ t.addr.toNat = a then { t with addr := BitVec.ofNat 13 b }.toHalf else h
  let onPull := fun (h : Half) =>
    let p := PortCfg.ofHalf h
    if p.act = .pull ∧ p.low.toNat = a then { p with low := BitVec.ofNat 13 b }.toHalf else h
  let pulls := match cls with | .pe | .ve | .conv | .seqr | .join | .chan | .mem => true | _ => false
  { w with f1 := onTarget w.f1, f2 := onTarget w.f2, f3 := if pulls then onPull w.f3 else w.f3,
           f4 := if pulls then onPull w.f4 else w.f4 }

/-- The record at an address after a move of another: station records, MO ports and seed ports name targets; block records and
export ports, whose target lies in another cluster, do not. -/
def retargetAt (a b addr : Nat) (w : RawRecord) : RawRecord :=
  match placeOf addr with
  | .station cls => retarget a b cls w
  | .moControl | .seed => { retarget a b .hostIn w with f3 := w.f3, f4 := w.f4 }
  | _ => w

/-- A stored entry follows a move: its own station, and the requester that a request names. -/
def MatchEntry.follow (e : MatchEntry) (a b : Nat) : MatchEntry :=
  let e := if e.station = a then { e with station := b } else e
  if e.request ∧ e.value = .narrow (BitVec.ofNat 32 a) then { e with value := .narrow (BitVec.ofNat 32 b) } else e

/-- The number of a station after a move. -/
def followed (a b st : Nat) : Nat := if st = a then b else st

/-- What a token carries follows a move: the requester that a pull request names, and the place of a purge's acknowledgement (R33,
R171). Where it is addressed to is the stub's to forward. -/
def followToken (a b : Nat) (t : Token) : Token :=
  match t.kind with
  | .request => if t.value = .narrow (BitVec.ofNat 32 a) then { t with value := .narrow (BitVec.ofNat 32 b) } else t
  | .purge k => if k.addr.toNat = a then { t with kind := .purge { k with addr := BitVec.ofNat 13 b } } else t
  | _ => t

/-- What is due in a cluster follows a move: firings, tokens, deadlock probes, whose addresses are the current ones (R56). -/
def Activity.follow (e : Activity) (c a b : Nat) : Activity :=
  match e with
  | .fire d st g => if d = c then .fire d (followed a b st) g else e
  | .event i y =>
    if y.cluster ≠ c then e
    else
      (match i with
       | .tokenArrival => .event i { y with token := followToken a b y.token }
       | .deadlockProbeSend => .event i { y with station := followed a b y.station }
       | .deadlockProbeArrival =>
         let p : Probe := { y.probe with origin := followed a b y.probe.origin, list := y.probe.list.map (followed a b) }
         .event i { y with station := followed a b y.station, probe := p }
       | _ => e)
  | _ => e

/-- The tokens that wait in cluster d for a credit of a queue of cluster c leave where that queue has one. -/
def State.relaunchFrom (s : State) (c d : Nat) : State :=
  (s.region d).blocked.foldl (fun s b =>
    if b.2.cluster = c ∧ s.hasCredit c (s.wantedKey b.1 b.2) then
      ((s.updRegion d (fun r => { r with blocked := r.blocked.erase b })).launchFrom d b.1 b.2).endWait d b.1
    else s) s

/-- Results that wait for a credit of a queue of a cluster leave where it has one: their target has moved, or a queue has emptied
(R36). -/
def State.relaunch (s : State) (c : Nat) : State :=
  ((s.relaunchFrom c c).regions.map (fun e => e.1)).foldl (fun s d => if d = c then s else s.relaunchFrom c d) (s.relaunchFrom c c)

/-- A table with the entry of one station under the number of another. -/
def moveEntry {α : Type} (t : Table α) (a b : Nat) : Table α :=
  match t.get? a with
  | some v => (t.erase a).set b v
  | none => t

/-- A stored entry of a moved instruction stays in the store of the old station's element until its partners come, a sticky one too
where there is no room for it (R55). An entry that still stands at the element moved to is at home there. -/
def MatchEntry.leave (e : MatchEntry) (a b : Nat) : MatchEntry :=
  if e.station ≠ a ∨ e.spilled ∨ e.queued.isSome then e
  else
    let at_ := e.left.getD (elementOf a)
    { e with left := if at_ = elementOf b then none else some at_ }

/-- The sticky tokens of a station move to its element with its instruction (R55). -/
def Region.moveSticky (r : Region) (b : Nat) : Region :=
  (r.store.filter (fun e => e.station == b && e.sticky && e.left.isSome)).foldl
    (fun r m => r.takeIn (elementOf b) (fun e => e.station == b && e.sticky) m) r

/-- The instruction of a station moves: its record is copied, every producer is rewritten, its sticky tokens and what names it go with it,
its other tokens follow when their partners come, and the old station becomes a stub (R55, R56). Where it comes home it is no longer
listed as moved (R99). -/
def State.moveStation (s : State) (c a b : Nat) : State :=
  let w := s.raw c a
  let home : Nat := (((s.region c).moved.find? (fun e => e.2 == a)).map (fun e => e.1)).getD a
  let s := s.updRegion c (fun r =>
    { r with
      records := ((r.records.erase a).set b w).map (fun (e : Nat × RawRecord) => (e.1, retargetAt a b e.1 e.2))
      moved := if home = b then r.moved.erase home else r.moved.set home b
      stubs := Table.set ((r.stubs.erase b).map (fun (e : Nat × Nat) => (e.1, followed a b e.2))) a b
      store := r.store.map (fun e => (e.leave a b).follow a b)
      asked := r.asked.map (fun e => (followed a b e.1, e.2))
      blocked := r.blocked.map (fun e =>
        (followed a b e.1, { followToken a b e.2 with station := followed a b e.2.station }))
      arb := moveEntry r.arb a b
      waits := moveEntry r.waits a b
      brkHeld := r.brkHeld.map (fun e => (followed a b e.1, e.2)) })
  let s := s.updRegion c (fun r => r.moveSticky b)
  let s := { s with agenda := s.agenda.map (fun (e : Activity) => e.follow c a b),
                    spanOut := s.spanOut.map (fun (e : SpanOut) =>
                      if e.cluster = c then { e with station := followed a b e.station } else e) }
  ((s.relaunch c).endWaits c).dueEvent .stubRelease { cluster := c, station := a }

/-- The tokens on their way to a stub go on to the instruction's station at once, and the stub ends: a stream writes the station. -/
def State.dropStub (s : State) (c a : Nat) : State :=
  match (s.region c).stubs.get? a with
  | none => s
  | some b =>
    { s with agenda := s.agenda.map (fun (e : Activity) =>
        match e with
        | .event .tokenArrival y =>
          if y.cluster = c ∧ y.token.station = a then Activity.event .tokenArrival { y with token := { y.token with station := b } } else e
        | .event .exportArrival y =>
          if y.cluster = c ∧ y.token.station = a then Activity.event .exportArrival { y with token := { y.token with station := b } } else e
        | _ => e) }.updRegion c (fun r => { r with stubs := r.stubs.erase a })

/-- The stations that a stream is to write are cleared of instructions that have moved there, which return to their homes, and of stubs
(R54, R55, R99). The model's choice (log 100), where R54 lets the stream wait for neither. -/
def State.clearWay (s : State) (c : Nat) (addrs : List Nat) : State :=
  let s := ((s.region c).moved.filter (fun e => addrs.contains e.2)).foldl (fun s e => s.moveStation c e.2 e.1) s
  ((s.region c).stubs.filter (fun e => addrs.contains e.1)).foldl (fun s e => s.dropStub c e.1) s

/-- The PE and VE stations of a region that hold an instruction of a configuration with a live context: an idle configuration's stand at
their homes (R99). -/
def State.movable (s : State) (c : Nat) : List Nat :=
  let r := s.region c
  let live := r.residents.filter (fun e => (s.ctxsOf c).any (fun k => k.cfg == e.tag))
  let mine := (live.map (fun e => e.addrs.map (fun a => r.moved.getD a a))).flatten
  (r.records.filter (fun e => decide (e.1 < 0x1100) && e.2.f0 != 0 && mine.contains e.1)).map (fun e => e.1)

/-- Whether a region may start a move: MIGDIS is 0, and it is in no freeze, drain or delivery (R56, R417). -/
def State.mayMigrate (s : State) (c : Nat) : Bool :=
  let r := s.region c
  !s.regs.dmode.getLsbD 2 && !r.halted && !r.draining && r.delivery.isNone && !r.asleep
    && !s.freezes.any (fun f => f.clusters.contains c && !f.saved)

/-- What the input queues of a station held over the period in progress, in entries times cycles, and how many queues they are (R417). -/
def State.occupancy (s : State) (c st : Nat) : Nat × Nat :=
  let keys := s.queuesOf c st
  ((keys.map (fun k => (s.region c).occupied.getD k 0)).sum, keys.length)

/-- Of two stations, the one whose queues held more on average, the first on a tie (R417). -/
def State.fuller (s : State) (c a b : Nat) : Nat :=
  let m := s.occupancy c a
  let n := s.occupancy c b
  if m.1 * n.2 < n.1 * m.2 then b else a

/-- The station that a period of p cycles selects for a move (R417): its queues held on average 6 of their 8 entries or more, and its
element fired in at least 7 of 8 cycles; the highest occupancy, then the lowest address. -/
def State.selectMove (s : State) (c p : Nat) : Option Nat :=
  match (s.movable c).filter (fun a =>
      let o := s.occupancy c a
      decide (0 < o.2) && decide (6 * p * o.2 ≤ o.1) && decide (7 * p ≤ 8 * (s.region c).fired.getD (elementOf a) 0)) with
  | [] => none
  | a :: rest => some (rest.foldl (s.fuller c) a)

/-- The free station that the instruction of a station moves to (R417): the one whose element fired least, then the lowest address. -/
def State.selectFree (s : State) (c a : Nat) : Option Nat :=
  let r := s.region c
  let firings := fun (b : Nat) => r.fired.getD (elementOf b) 0
  match (List.range 0x1100).filter (fun b => decide (b ≠ a) && r.canMove a b) with
  | [] => none
  | b :: rest => some (rest.foldl (fun m n => if firings n < firings m then n else m) b)

/-- MIGRATION_SELECT (R210, R417): every 4,096 cycles a region examines its stations, and moves at most one. -/
def execMigrationSelect (s : State) : Host.Outcome State Fault Refusal :=
  let x := s.cur
  let r := s.region x.cluster
  let p := s.cycle - r.movedAt
  let s := if r.residents.isEmpty then s else s.dueEvent .migrationSelect x
  done (
    if p < 4096 then s
    else
      let chosen := if s.mayMigrate x.cluster then s.selectMove x.cluster p else none
      let t := s.updRegion x.cluster (fun r => { r with movedAt := s.cycle, occupied := [], fired := [] })
      match chosen with
      | none => t
      | some a =>
        match s.selectFree x.cluster a with
        | some b => (t.moveStation x.cluster a b).updRegion x.cluster (fun r => r.count 2 1)
        | none => t)

/-- STUB_RELEASE (R55): a stub goes once the entries of the old station have drained from its element and no token addressed to it remains
in flight. -/
def execStubRelease (s : State) : Host.Outcome State Fault Refusal :=
  let x := s.cur
  let still := s.agenda.any (fun a => match a with
    | .event .tokenArrival y | .event .exportArrival y => y.cluster == x.cluster && y.token.station == x.station
    | _ => false)
    || (s.region x.cluster).store.any (fun e =>
        some e.station == (s.region x.cluster).stubs.get? x.station && e.left == some (elementOf x.station))
  done (
    if still then s.dueEvent .stubRelease x
    else s.updRegion x.cluster (fun r => { r with stubs := r.stubs.erase x.station }))

end Sys2Proof.Machine
end

