-- ==== Sys2Proof/Machine/Quarry.lean ====
section
/-! DEFINITION. Quarry counters (0xA0 to 0xA5, R242 to R246 and R361 to R378): slabs at the clusters, and the home with its
serial order, recalls, refills and waiters. -/

namespace Sys2Proof.Machine

open Sys2Proof

/-- SLABMIN, SLABMAX and HOME of a policy word (R243). -/
def slabMin (p : Word) : Nat := (p.extractLsb' 15 15).toNat

def slabMax (p : Word) : Nat := (p.extractLsb' 0 15).toNat

def policyHome (p : Word) : Bool := p.getLsbD 31

/-- Whether a QPOL word keeps R243. -/
def policyOk (p : Word) : Bool :=
  !p.getLsbD 30 && decide (1 ≤ slabMax p) && decide (slabMin p ≤ slabMax p)

/-- Whether the operand of a quarry operation raises QUARRY (R246). -/
def quarryBad (op : QuarryOp) (b : Word) : Bool :=
  match op with
  | .take | .takew | .give => b.toNat == 0 || decide (quarryMax < b.toNat)
  | .init => decide (quarryMax < b.toNat)
  | .pol => !policyOk b
  | .read | .readLocal => false

/-- A quarry operation ends in QUARRY and changes nothing (R246, R376). -/
def State.quarryTrap (s : State) (q : MemReq) : State :=
  if q.cluster = 64 then (s.dropReq q.id).answer q.aux.toNat [] Trap.quarry.code
  else (s.endReq q).takeTrapAt .quarry q.cluster q.station q.tag q.a q.b q.va.toNat 0 3 []

/-! ## Slabs (R364 to R366, R377) -/

/-- The slab of a line in a cluster. -/
def State.slab? (s : State) (c line : Nat) : Option Slab := (s.region c).slabs.get? line

/-- A slab's AMOUNT changes; the slab was just used. -/
def State.setSlab (s : State) (c line amount : Nat) : State :=
  s.updRegion c (fun r =>
    { r with slabs := updEntry r.slabs line (fun b => { b with amount := amount, used := s.ticks }) })

/-- A cluster holds no slab of a line any more. -/
def State.dropSlab (s : State) (c line : Nat) : State :=
  s.updRegion c (fun r => { r with slabs := r.slabs.erase line, struckSlabs := r.struckSlabs.erase line })

/-- Whether a soft error has struck a slab that a cluster holds (R376). -/
def State.slabStruck (s : State) (c line : Nat) : Bool :=
  (s.slab? c line).isSome && ((s.region c).struckSlabs.get? line).isSome

/-- A struck slab is lost, and its counter with it (R376). -/
def State.loseSlab (s : State) (c line : Nat) : State := (s.dropSlab c line).loseCounter line

/-- The report of a soft error in a slab entry that no operation met (R376, R453): as it struck there; its cluster's where no report is
recorded (log 112). -/
def State.slabError (s : State) (c line : Nat) : SoftError :=
  ((s.region c).struckSlabs.get? line).getD { die := BitVec.ofNat 8 (dieOf c), unit := BitVec.ofNat 8 (16 + c), kind := 1, line := some line, slab := some c }

/-- A message between a cluster and a counter's home; its serial number keeps the order of sending (R366). -/
def State.sendQuarry (s : State) (i : Instr) (x : Site) : State :=
  let f := s.fresh
  f.2.dueEvent i { x with station := f.1 }

/-- Whether a message of one way between a cluster and the home slice of a line was sent before one with a serial number, and has not
arrived (R366). -/
def State.sentBefore (s : State) (toHome : Bool) (c line serial : Nat) : Bool :=
  s.agenda.any (fun a =>
    match a with
    | .event .quarryHomeRequest x | .event .quarryRecallAnswer x =>
      toHome && x.cluster == c && sliceOf x.index == sliceOf line && decide (0 < x.station) && decide (x.station < serial)
    | .event .quarryRefill x | .event .quarryRecall x =>
      !toHome && x.cluster == c && sliceOf x.index == sliceOf line && decide (0 < x.station) && decide (x.station < serial)
    | _ => false)

/-- The least recently used slab among a list. -/
def oldestSlab : List (Nat × Slab) → Option (Nat × Slab)
  | [] => none
  | x :: rest =>
    match oldestSlab rest with
    | some y => if y.2.used < x.2.used then some y else some x
    | none => some x

/-- A full slab table returns its least recently used slab to its home (R377: 256 entries); a struck one is lost (R376). -/
def State.roomForSlab (s : State) (c : Nat) : State :=
  if (s.region c).slabs.length < 256 then s
  else match oldestSlab (s.region c).slabs with
    | some (line, b) =>
      if s.slabStruck c line then (s.loseSlab c line).logError (s.slabError c line)
      else (s.dropSlab c line).sendQuarry .quarryRecallAnswer
        { cluster := c, index := line, amount := some b.amount, word := BitVec.ofNat 32 b.ceil, hasC := true }
    | none => s

/-- The local result of an operation that the cluster's slab serves (R365): the new AMOUNT and the value sent. -/
def localServe (op : QuarryOp) (b : Word) (slab : Option Slab) : Option (Nat × Word) :=
  match op, slab with
  | .take, some x | .takew, some x => if b.toNat ≤ x.amount then some (x.amount - b.toNat, b) else none
  | .give, some x => if x.amount + b.toNat ≤ x.ceil then some (x.amount + b.toNat, 0) else none
  | .readLocal, some x => some (x.amount, BitVec.ofNat 32 x.amount)
  | .readLocal, none => some (0, 0)
  | _, _ => none

/-- Whether the leaf of an address has SHR = 1 (R339): the leaf that the access has been translated with, which its cluster has cached. -/
def State.sharedPage (s : State) (q : MemReq) : Bool :=
  let root := s.rootOf q.cluster q.tag
  match (s.region q.cluster).tlb.find? (fun t => t.root.toNat == root && t.page == q.va.toNat / 2 ^ pageBits t.level) with
  | some t => leafShr t.leaf.toNat
  | none => false

/-- A request goes to its counter's home with the cluster's whole slab (R366); an older reply under its id is no longer kept (R241). -/
def State.toHome (s : State) (q : MemReq) (line : Nat) (shr : Bool) : State :=
  let slab := s.slab? q.cluster line
  (((s.forget q).dropSlab q.cluster line).updReq q.id (fun q => { q with stage := .away })).sendQuarry .quarryHomeRequest
    { cluster := q.cluster, index := line, id := q.id, amount := slab.map (fun b => b.amount),
      word := BitVec.ofNat 32 ((slab.map (fun b => b.ceil)).getD 0),
      queue := (s.region q.cluster).refills.getD line 0, go := shr }

/-- A quarry request acts on a line of this device: at the cluster's slab where R365 says so, and at the home otherwise. A home-only counter
holds no slab (R372). -/
def State.actOnLine (s : State) (q : MemReq) (op : QuarryOp) (line : Nat) : State :=
  let k := s.counter line
  let shr := s.sharedPage q
  if quarryBad op q.b || (op != .init && (!k.init || k.lost)) then s.quarryTrap q
  else match localServe op q.b (if shr then none else s.slab? q.cluster line) with
    | some (amount, v) =>
      let r := if op = .give then v else s.replyFor (line * 128) v
      (if op = .readLocal then s else s.setSlab q.cluster line amount).performed q [.narrow r]
    | none => s.toHome q line shr

/-- The translation of a QREAD of the cluster's own slab in a page whose home is another device: such a line has no slab here, and the
instruction sends no message (R365). -/
def State.readElsewhere (s : State) (q : MemReq) (op : QuarryOp) : Option Translation :=
  if op != .readLocal || inAperture q.va.toNat || !s.linesHere (tableLines (s.walkedBy q q.va.toNat)) then none
  else match s.translate q.cluster q.tag (s.rootOf q.cluster q.tag) q.va.toNat true with
    | .ok t => (match s.physPlace t.pa with | .remote _ => some t | _ => if s.inLentPage t.pa then some t else none)
    | .error _ => none

/-- A quarry request goes on: inside the address space (R214), aligned, not in a speculation, translated and permitted (R376), and then
at the cluster's slab or at the home. One that meets a soft error, in the line or in the slab, ends with MACHINE_CHECK; a QINIT goes on to make
the counter anew. -/
def State.quarryAccess (s : State) (q : MemReq) (op : QuarryOp) (inPort : Bool) : State :=
  let va := q.va.toNat
  if 2 ^ 52 ≤ va then s.holdReq q .page va false
  else if va % 128 ≠ 0 then s.holdReq q .align va false
  else if (s.specOf q.cluster q.tag).isSome then s.pauseReq q.id
  else match s.readElsewhere q op with
    | some t =>
      (((s.meetWalk q t.walked).useFar (tableLines t.walked)).markLeaf q.cluster q.tag (s.rootOf q.cluster q.tag) va t true).performed q
        [.narrow 0]
    | none =>
      let struck := s.poisoned
      match s.reach q va 128 true inPort true with
      | .wait s => s
      | .here pa s =>
        let line := pa / 128
        if struck.contains line && op != .init then s.endReq q
        else if s.slabStruck q.cluster line then
          let s := (s.loseSlab q.cluster line).takeTrap .machineCheck q.cluster q.station q.tag q.a q.b
          if op = .init then s.actOnLine q op line else s.endReq q
        else s.actOnLine q op line

/-! ## The home (R366 to R373) -/

/-- Units reach the home: POOL, or ASIDE and the waiters while any wait (R371). -/
def State.addUnits (s : State) (line n : Nat) : State :=
  let k := s.counter line
  let w := (s.quarryOf line).waiters.length
  if w = 0 then s.putCounter line { k with pool := k.pool + n }
  else State.settle w (s.putCounter line { k with aside := k.aside + n }) line

/-- A slab that reaches the home with its AMOUNT and CEIL ends: its cluster holds none (R366, R377). -/
def State.endSlab (s : State) (line c amount ceil : Nat) : State :=
  let k := s.counter line
  let s := s.putCounter line { k with holders := k.holders.filter (fun h => h != c), ceilSum := k.ceilSum - ceil }
  s.addUnits line amount

/-- The refill of R368 for a cluster that was granted a take: its size. -/
def refillSize (k : Counter) (c : Nat) (qhost : Bool) : Nat :=
  let holders := (c :: k.holders.filter (fun h => h != c)).length
  if qhost then min k.pool (slabMin k.policy)
  else min k.pool (max (slabMin k.policy) (min (slabMax k.policy) (k.pool / (2 * holders))))

/-- A take of n is granted: the home replies n, and the reply brings the cluster its refill where it gets one (R366, R368). -/
def State.grantTake (s : State) (q : MemReq) (line : Nat) (mayRefill : Bool) : State :=
  let k := s.counter line
  let g := if mayRefill then refillSize k q.cluster (s.regs.dmode.getLsbD 1) else 0
  let v := [Value.narrow (s.replyFor (line * 128) q.b)]
  if g = 0 then s.homeReply q v
  else
    let s := s.putCounter line { k with pool := k.pool - g, ceilSum := k.ceilSum + g,
                                        holders := (List.range 64).filter (fun h => h == q.cluster || k.holders.contains h) }
    let s := s.updQuarry line (fun h => { h with sent := h.sent.set q.cluster (h.sent.getD q.cluster 0 + 1) })
    ((s.keep q v).updReq q.id (fun q => { q with stage := .performed, result := v })).sendQuarry .quarryRefill
      { cluster := q.cluster, index := line, id := q.id, amount := some g }

/-- Waiters of one home slice (R314, R371). -/
def State.waitersOn (s : State) (slice : Nat) : Nat :=
  (s.quarry.map (fun e => if sliceOf e.1 = slice then e.2.waiters.length else 0)).sum

/-- A recall starts: one message to each holder (R369). -/
def State.startRecall (s : State) (line id : Nat) : State :=
  let k := s.counter line
  let s := s.updQuarry line (fun h => { h with recalled := some id, awaited := k.holders, answers := 0 })
  k.holders.foldl (fun s c => s.sendQuarry .quarryRecall { cluster := c, index := line }) s

/-- A QTAKEW joins the waiters, or goes back to its port while the slice's list is full (R371: 64); a freeze withdraws it there
(R375). One of another device comes again from where it has arrived. One of a discarded context does not wait. -/
def State.enqueueTake (s : State) (q : MemReq) (line : Nat) (head : Bool) : State :=
  if s.isKilled q then s.endReq q
  else if 64 ≤ s.waitersOn (sliceOf line) then
    (if q.cluster = 64 then s.dueEvent .quarryHomeRequest { cluster := 64, index := line, id := q.id, go := true }
     else if (s.region q.cluster).halted then s.updReq q.id (fun q => { q with stage := .withdrawn })
     else (s.updReq q.id (fun q => { q with stage := .issued })).retryReq q.id)
  else
    let k := s.counter line
    let s := s.updQuarry line (fun h => { h with waiters := h.waiters ++ [(q.id, q.b.toNat)] })
    s.putCounter line (if head then { k with aside := k.pool, pool := 0 } else k)

/-- What the home does with the request at the head of its line. -/
inductive HomeAct where
  | recallFirst
  | served (s : State)
  deriving DecidableEq, Repr

/-- A take at the home (R367). `again` says that the recall has been made. -/
def State.serveTake (s : State) (q : MemReq) (line : Nat) (mayRefill wait again : Bool) : HomeAct :=
  let k := s.counter line
  let n := q.b.toNat
  if (s.quarryOf line).waiters ≠ [] then
    (if wait then .served (s.enqueueTake q line false) else .served (s.homeReply q [.narrow (s.replyFor (line * 128) 0)]))
  else if k.pool < n ∧ k.holders ≠ [] ∧ !again then .recallFirst
  else if n ≤ k.pool then .served ((s.putCounter line { k with pool := k.pool - n }).grantTake q line mayRefill)
  else if wait then .served (s.enqueueTake q line true)
  else .served (s.homeReply q [.narrow (s.replyFor (line * 128) 0)])

/-- A give at the home (R370). -/
def State.serveGive (s : State) (q : MemReq) (line : Nat) (again : Bool) : HomeAct :=
  let k := s.counter line
  let n := q.b.toNat
  if k.pool + k.aside + n + k.ceilSum ≤ quarryMax then .served ((s.addUnits line n).homeReply q [.narrow 0])
  else if !again then .recallFirst
  else .served (s.quarryTrap q)

/-- How far a request has come: the accesses it has performed. -/
def MemReq.progress (q : MemReq) : Nat × Nat := (q.agen, q.c.toNat)

/-- The home serves one request of a line (R363, R367, R370 to R373). A request sent before its context was discarded still acts (R419). A
request applied before has the reply that the home keeps (R241). A plain write of a line that holds slabs by then is performed after its
recall, and any other at once; the line is kept for it, and events that wait for it are posted. -/
def State.serveHome (s : State) (line : Nat) (a : Arrival) (again : Bool) : HomeAct :=
  match s.req? a.id with
  | none =>
    if a.id ≠ 0 then .served s
    else if again || !s.holdsSlabs line then .served (s.updQuarry line (fun h => { h with writing := some (0, 0, 0) })).drainAll
    else .recallFirst
  | some q =>
    let k := s.counter line
    match q.kind with
    | .quarry op =>
      match s.kept q with
      | some v => .served (s.performed q v)
      | none =>
        match op with
        | .init =>
          if !again then .recallFirst
          else
            let s := s.putCounter line { k with pool := 0, policy := 1, init := true, lost := false, aside := q.b.toNat }
            .served ((State.settle (s.quarryOf line).waiters.length s line).homeReply q [.narrow 0])
        | _ =>
          if !k.init || k.lost then .served (s.quarryTrap q)
          else
            match op with
            | .take | .takew =>
              s.serveTake q line (!a.shr && !policyHome k.policy && (s.quarryOf line).sent.getD q.cluster 0 == a.received)
                (op == .takew) again
            | .give => s.serveGive q line again
            | .pol =>
              if policyHome q.b && !again then .recallFirst
              else .served ((s.putCounter line { k with policy := q.b }).homeReply q [.narrow 0])
            | _ => if again then .served (s.homeReply q [.narrow (s.replyFor (line * 128) (BitVec.ofNat 32 k.pool))]) else .recallFirst
    | _ =>
      if again || !s.holdsSlabs line then
        .served (((s.updQuarry line (fun h => { h with writing := some (q.id, q.progress) })).updReq q.id (fun q =>
          { q with stage := .issued })).dueNow .pageWalk { id := q.id })
      else .recallFirst

/-- EVTYPE 4 of a recall that completes, while QHOST is 1 (R410, R429). -/
def State.postRecall (s : State) (line : Nat) : State :=
  if s.regs.dmode.getLsbD 1 then
    s.post 0 { evtype := 4, va := line * 128, vala := BitVec.ofNat 32 (s.counter line).pool,
               valb := BitVec.ofNat 32 (s.quarryOf line).answers }
  else s

/-- The recall in progress completes when no answer is awaited: no cluster holds a slab, and its request is served (R369). -/
def State.endRecall (s : State) (line : Nat) : State :=
  let h := s.quarryOf line
  match h.recalled, h.arrived with
  | some _, a :: rest =>
    if h.awaited ≠ [] then s
    else
      let s := s.putCounter line { s.counter line with holders := [], ceilSum := 0 }
      let s := s.postRecall line
      let s := s.updQuarry line (fun h => { h with recalled := none, arrived := rest })
      let s := match s.serveHome line a true with
        | .served s => s
        | .recallFirst => s
      s.dueEvent .quarryHomeRequest { index := line }
  | some _, [] => s.updQuarry line (fun h => { h with recalled := none })
  | none, _ => s

/-! ## Plain writes (R363) -/

/-- Whether an access of another device writes its line otherwise than as a quarry operation. -/
def spanWrites (a : SpanAccess) : Bool :=
  match a.far with
  | some f => decide (f.op < 0xA0) || decide (0xA5 < f.op)
  | none => a.write

/-- Whether the packet in hand of a queue writes a line: the flag of a SIGNAL, the result of a LOAD, or the Landing that a LAUNCH
publishes. -/
def State.packetWrites (s : State) (q line : Nat) : Bool :=
  let k := s.queue q
  let at_ := fun (va : Nat) => match s.walk k.root.toNat va with
    | .leaf _ entry level => (entry / 2 ^ 16 % 2 ^ 36 * 65536 + va % 2 ^ pageBits level) / 128 == line
    | _ => false
  match k.current with
  | some p =>
    (match decodePacket q p.bytes with
     | .ok (.signal a _) => at_ a.toNat
     | .ok (.load _ _ r) | .ok (.loadPlace _ _ _ r) => at_ r.toNat || at_ (r.toNat + 7)
     | .ok (.launch _) => (match (s.ferryOf q).spec with | some x => (x.landing.get? line).isSome | none => false)
     | _ => false)
  | none => false

/-- Whether a write of a line from outside the clusters is on its way. -/
def State.outsideWrites (s : State) (line : Nat) : Bool :=
  s.agenda.any (fun a =>
    match a with
    | .event .hostCoherentRequest x => x.host.write && x.host.addr / 128 == line
    | .event .spanAccessRequest x => spanWrites x.access && x.access.addr % 2 ^ 39 / 128 == line
    | .event .remoteCopyElement x => (lineParts x.remote.va x.remote.data).any (fun p =>
        match s.importWalk p.1 with | .ok t => t.pa / 128 == line | .error _ => false)
    | .packet q => s.packetWrites q line
    | _ => false) || s.egressWrites line

/-- Whether a line is kept for the plain write that a recall was made for: it is performed before the line's next request (R363). -/
def State.lineKept (s : State) (line : Nat) : Bool :=
  match (s.quarryOf line).writing with
  | none => false
  | some (id, at_) =>
    if id = 0 then s.outsideWrites line
    else match s.req? id with
      | some q => (q.stage == .issued || q.stage == .away) && q.progress == at_
      | none => false

/-! ## The requests of a line (R366, R367) -/

/-- An arrival takes its place: after all that came in an earlier cycle, and by cluster in its own (R367). -/
def insertArrival (a : Arrival) : List Arrival → List Arrival
  | [] => [a]
  | x :: rest => if x.cycle = a.cycle ∧ a.rank < x.rank then a :: x :: rest else x :: insertArrival a rest

/-- Whether a request of a lower cluster for the line could still arrive in this cycle (R367). -/
def State.quarryRival (s : State) (line rank : Nat) : Bool :=
  s.agenda.any (fun a =>
    match a with
    | .event .quarryHomeRequest x => x.index == line && x.id != 0 && decide (x.cluster < rank)
    | _ => false)

/-- The requests that have arrived at a line are served in order, up to the first that needs a recall (R367). The fuel is their
number. -/
def State.serveLine : Nat → State → Nat → State
  | 0, s, _ => s
  | fuel + 1, s, line =>
    let h := s.quarryOf line
    if h.recalled.isSome then s
    else match h.arrived with
      | [] => s
      | a :: rest =>
        if s.lineKept line || (a.cycle == s.cycle && s.quarryRival line a.rank) then
          s.dueOnce (.event .quarryHomeRequest { index := line })
        else
          let s := s.updQuarry line (fun h => { h with writing := none })
          match s.serveHome line a false with
          | .served s => State.serveLine fuel (s.updQuarry line (fun h => { h with arrived := rest })) line
          | .recallFirst => (s.startRecall line a.id).endRecall line

/-- A request joins those that wait at a line, which goes on. -/
def State.arriveAt (s : State) (line : Nat) (a : Arrival) : State :=
  let s := s.updQuarry line (fun h => { h with arrived := match h.recalled, h.arrived with
    | some _, x :: rest => x :: insertArrival a rest
    | _, l => insertArrival a l })
  State.serveLine ((s.quarryOf line).arrived.length + 1) s line

/-- The line goes on with what has arrived. -/
def State.pumpLine (s : State) (line : Nat) : State :=
  State.serveLine ((s.quarryOf line).arrived.length + 1) s line

/-- QUARRY_HOME_REQUEST (R366, R367): a request arrives with the slab it carries and takes its turn. An event without a request
lets the line go on. One for a line whose page is in hand-over goes back to wait and be forwarded (R441). -/
def execQuarryHomeRequest (s : State) : Host.Outcome State Fault Refusal :=
  let x := s.cur
  done (
    if x.id = 0 then s.pumpLine x.index
    else if s.sentBefore true x.cluster x.index x.station then s.dueEvent .quarryHomeRequest x
    else
      let s := match x.amount with
        | some a => s.endSlab x.index x.cluster a x.word.toNat
        | none => s
      if s.inLentPage (x.index * 128) then (s.updReq x.id (fun q => { q with stage := .issued })).retryReq x.id
      else s.arriveAt x.index { id := x.id, received := x.queue, shr := x.go, cycle := s.cycle, rank := x.cluster })

/-- QUARRY_REFILL (R366, R368, R377): the reply of a take reaches its cluster with the slab it brings. -/
def execQuarryRefill (s : State) : Host.Outcome State Fault Refusal :=
  let x := s.cur
  let g : Nat := x.amount.getD 0
  let slab : Slab := { amount := g, ceil := g, used := s.ticks }
  done (
    if s.sentBefore false x.cluster x.index x.station then s.dueEvent .quarryRefill x
    else
      ((s.roomForSlab x.cluster).updRegion x.cluster (fun r =>
        { r with slabs := r.slabs.set x.index slab, refills := r.refills.set x.index (r.refills.getD x.index 0 + 1) })).dueNow
        .memoryReply { id := x.id })

/-- QUARRY_RECALL (R366, R369): the cluster answers with its slab and drops it, or answers "carried"; what the home sent before comes
first. A slab that a soft error has struck is lost (R376). -/
def execQuarryRecall (s : State) : Host.Outcome State Fault Refusal :=
  let x := s.cur
  done (
    if s.sentBefore false x.cluster x.index x.station then s.dueEvent .quarryRecall x
    else if s.slabStruck x.cluster x.index then
      ((s.loseSlab x.cluster x.index).logError (s.slabError x.cluster x.index)).sendQuarry .quarryRecallAnswer
        { cluster := x.cluster, index := x.index }
    else
      match s.slab? x.cluster x.index with
      | some b =>
        (s.dropSlab x.cluster x.index).sendQuarry .quarryRecallAnswer
          { cluster := x.cluster, index := x.index, amount := some b.amount, word := BitVec.ofNat 32 b.ceil }
      | none => s.sendQuarry .quarryRecallAnswer { cluster := x.cluster, index := x.index })

/-- QUARRY_RECALL_ANSWER (R366, R369, R377): an answer counts after every message that its cluster sent before it. A slab
returned for want of room answers no recall. -/
def execQuarryRecallAnswer (s : State) : Host.Outcome State Fault Refusal :=
  let x := s.cur
  done (
    if s.sentBefore true x.cluster x.index x.station then s.dueEvent .quarryRecallAnswer x
    else
      let s := match x.amount with
        | some a => s.endSlab x.index x.cluster a x.word.toNat
        | none => s
      if x.hasC then s.pumpLine x.index
      else
        let s := s.updQuarry x.index (fun h =>
          { h with awaited := h.awaited.filter (fun c => c != x.cluster), answers := h.answers + 1 })
        s.endRecall x.index)

/-- COUNTER_LINE_WRITE (R363): a plain write to a line takes its turn at the home, which recalls every slab first; a write that
has left INIT at 0 raises QUARRY in the context of every waiter. One turn serves every write from outside the clusters that waits. -/
def execCounterLineWrite (s : State) : Host.Outcome State Fault Refusal :=
  let x := s.cur
  done (
    if x.hasC then
      if (s.counter x.index).init then s
      else
        let ids := (s.quarryOf x.index).waiters.map (fun w => w.1)
        let s := s.updQuarry x.index (fun h => { h with waiters := [] })
        ids.foldl (fun s id => match s.req? id with | some q => s.quarryTrap q | none => s) s
    else if x.id = 0 && (s.quarryOf x.index).arrived.any (fun a => a.id == 0) then s
    else s.arriveAt x.index { id := x.id, cycle := s.cycle, rank := if x.id = 0 then 64 else x.cluster })

/-! ## The instructions (R242 to R245) -/

/-- The request of a quarry instruction, with its fixed order (R242). -/
def State.quarryReq (s : State) (op : Nat) (r : Rec) (kind : QuarryOp) (rel : Bool) : MemReq :=
  { s.stationReq op r (.quarry kind) 128 with acquire := !rel, release := rel }

/-- QINIT (R243). -/
def execQinit (r : Rec) (s : State) : Host.Outcome State Fault Refusal :=
  eitherFiring 0xA0 r (fun t => t.quarryReq 0xA0 r .init true) s

/-- QTAKE (R244). -/
def execQtake (r : Rec) (s : State) : Host.Outcome State Fault Refusal :=
  eitherFiring 0xA1 r (fun t => t.quarryReq 0xA1 r .take false) s

/-- QTAKEW (R244). -/
def execQtakew (r : Rec) (s : State) : Host.Outcome State Fault Refusal :=
  eitherFiring 0xA2 r (fun t => t.quarryReq 0xA2 r .takew false) s

/-- QGIVE (R245). -/
def execQgive (r : Rec) (s : State) : Host.Outcome State Fault Refusal :=
  eitherFiring 0xA3 r (fun t => t.quarryReq 0xA3 r .give true) s

/-- QREAD with F0[0] = 0 (R245): the exact value. -/
def execQread (r : Rec) (s : State) : Host.Outcome State Fault Refusal :=
  eitherFiring 0xA4 r (fun t => t.quarryReq 0xA4 r .read false) s

/-- QREAD with F0[0] = 1 (R245): the value of the cluster's own slab. -/
def execQreadLocal (r : Rec) (s : State) : Host.Outcome State Fault Refusal :=
  eitherFiring 0xA4 r (fun t => t.quarryReq 0xA4 r .readLocal false) s

/-- QPOL (R243). -/
def execQpol (r : Rec) (s : State) : Host.Outcome State Fault Refusal :=
  eitherFiring 0xA5 r (fun t => t.quarryReq 0xA5 r .pol true) s

end Sys2Proof.Machine
end

