-- ==== Sys2Proof/Machine/Launch.lean ====
section
/-! DEFINITION. The life of a launch: residency and eviction (R54, R98, R99), the CTX of a context (R45), cold and warm starts (R51,
R53, R406), placing deliveries (R407, R408), base bindings (R118), sequencing (R119, R120), and completion (R63, R404). -/

namespace Sys2Proof.Machine

open Sys2Proof

/-! ## What a stream writes (R65, R72, R73) -/

/-- The PEs of a rectangle list, y first then x: number 32y + x (R72, R75). Each appears once (R73). -/
def pesOf (rects : List (BitVec 10 × BitVec 10)) : List Nat :=
  (List.range 1024).filter (fun p => rects.any (fun r =>
    let x0 := (r.1.extractLsb' 5 5).toNat
    let y0 := (r.1.extractLsb' 0 5).toNat
    let x1 := (r.2.extractLsb' 5 5).toNat
    let y1 := (r.2.extractLsb' 0 5).toNat
    decide (x0 ≤ p % 32) && decide (p % 32 ≤ x1) && decide (y0 ≤ p / 32) && decide (p / 32 ≤ y1)))

/-- What a scan of a stream has met: addresses, the rectangles of the pattern in hand, and the first corner of the pair in hand. -/
structure StreamScan where
  addrs  : List Nat
  rects  : Option (List (BitVec 10 × BitVec 10))
  corner : BitVec 10
  deriving DecidableEq, Repr

/-- One word of a scan. -/
def StreamScan.word (k : StreamScan) (w : Word) : StreamScan :=
  match decodeCommand w with
  | .patbegin _ => { k with rects := some [] }
  | .recta v => { k with corner := v.extractLsb' 0 10 }
  | .rectb v => { k with rects := k.rects.map (fun l => l ++ [(k.corner, v.extractLsb' 0 10)]) }
  | .patend _ => { k with rects := none }
  | .configWrite a _ _ =>
    (match k.rects with
     | some l => { k with addrs := (pesOf l).map (fun p => 4 * p + a.toNat % 4) ++ k.addrs }
     | none => { k with addrs := a.toNat :: k.addrs })
  | _ => k

/-- The addresses that the words of a stream write: its stations and records (R66). -/
def streamAddrs (words : List Word) : List Nat :=
  (words.foldl StreamScan.word { addrs := [], rects := none, corner := 0 }).addrs.eraseDups

/-! ## Residency (R54, R71, R97 to R99) -/

/-- The object of a handle. -/
def State.object? (s : State) (h : Word) : Option Obj := s.objects.find? (fun o => o.handle == h)

/-- Whether a cluster holds a resident configuration of a tag. -/
def State.residentIn (s : State) (c : Nat) (tag : Half) : Bool := (s.region c).residents.any (fun e => e.tag == tag)

/-- Whether a configuration has a live context in a cluster; a discarded one is live until its CTX is free (R98, R419). A speculation
still running stands in no launch's way (R384). -/
def State.liveConfig (s : State) (c : Nat) (tag : Half) : Bool :=
  (s.ctxsOf c).any (fun k => k.cfg == tag && !(k.spec && !k.killed))

/-- The resident configurations of other tags that collide with the addresses of a stream, and those that do not (R54). -/
def State.colliding (s : State) (c : Nat) (tag : Half) (addrs : List Nat) : List Resident × List Resident :=
  (s.region c).residents.filter (fun e => e.tag != tag) |>.partition (fun e => e.addrs.any (fun a => addrs.contains a))

/-- Whether a region is in a freeze or drain that has not finished. -/
def State.frozen (s : State) (c : Nat) : Bool := (s.region c).halted || (s.region c).draining

/-- Whether a stream may be delivered to a region now (R54, R98). -/
def State.deliverable (s : State) (c : Nat) (tag : Half) (addrs : List Nat) : Bool :=
  let r := s.region c
  let p := s.colliding c tag addrs
  r.delivery.isNone && r.swept && !s.frozen c && !s.liveConfig c tag && p.1.all (fun e => !s.liveConfig c e.tag)
    && (s.residentIn c tag || decide (p.2.length < 4) || p.2.any (fun e => !s.liveConfig c e.tag))

/-- The flag-mode bindings of some channel elements of a cluster end, saved ones too (R263). -/
def State.endFlags (s : State) (c : Nat) (addrs : List Nat) : State :=
  { s with saves := s.saves.map (fun (e : Nat × Saved) => (e.1, if e.2.cluster = c then
      { e.2 with region := { e.2.region with bindings := e.2.region.bindings.filter (fun x => !(x.2.flag && addrs.contains x.1)) } }
    else e.2)) }

/-- A resident configuration is dropped: its records are cleared where they stand (R54, R55, R97). The flag-mode bindings of its
channel elements end with it (R263). -/
def State.dropResident (s : State) (c : Nat) (tag : Half) : State :=
  let mine := (((s.region c).residents.find? (fun e => e.tag == tag)).map (fun e => e.addrs)).getD []
  (s.endFlags c mine).updRegion c (fun r =>
    match r.residents.find? (fun e => e.tag == tag) with
    | some e =>
      let now := e.addrs.map (fun a => r.moved.getD a a)
      { r with records := r.records.filter (fun x => !now.contains x.1),
               moved := r.moved.filter (fun x => !e.addrs.contains x.1),
               bindings := r.bindings.filter (fun x => !e.addrs.contains x.1),
               residents := r.residents.filter (fun x => x.tag != tag) }
    | none => r)

/-- The least recently used of a list of resident configurations. -/
def leastUsed : List Resident → Option Resident
  | [] => none
  | e :: rest => some (rest.foldl (fun m x => if x.used < m.used then x else m) e)

/-- The configurations that make room for a stream: those that collide, and the least recently used of the others where four would stay and
the stream creates one more (R54). -/
def State.evicted (s : State) (c : Nat) (tag : Half) (addrs : List Nat) : List Resident :=
  let p := s.colliding c tag addrs
  if s.residentIn c tag || p.2.length < 4 then p.1
  else p.1 ++ (leastUsed (p.2.filter (fun e => !s.liveConfig c e.tag))).toList

/-- Room is made for a stream (R54). -/
def State.evictFor (s : State) (c : Nat) (tag : Half) (addrs : List Nat) : State :=
  (s.evicted c tag addrs).foldl (fun s e => s.dropResident c e.tag) s

/-- A stream is delivered to a region (R67). -/
def State.deliverStream (s : State) (c : Nat) (words : List Word) (job : Nat) : State :=
  ((s.clearWay c (streamAddrs words)).updRegion c (fun r =>
    { r with delivery := some { words := words, phase := .start, summed := [], tag := 0, records := r.records, written := [],
                                amend := false, job := job },
             asleep := false })).dueOnce (.command c)

/-- The speculations whose configuration a placing delivery would evict or write anew are discarded first (R385, R395). -/
def State.discardFor (s : State) (c : Nat) (tag : Half) (addrs : List Nat) : State :=
  let out := (s.evicted c tag addrs).map (fun e => e.tag)
  (s.ctxsOf c).foldl (fun s k =>
    if k.spec && !k.killed && (k.cfg == tag || out.contains k.cfg) then s.discardSpec (s.queueOf k) false else s) s

/-- The image of a placing delivery. -/
def State.jobImage (s : State) (j : Job) : Option Image := (s.object? j.handle).bind (fun o => o.images[j.image]?)

/-- A placing delivery begins in every cluster where it may, or stays as it is (R98, R407). -/
def State.beginJob (s : State) (j : Job) : State :=
  match s.jobImage j with
  | none => s
  | some i =>
    let addrs := streamAddrs i.words
    if j.clusters.all (fun c => s.deliverable c i.tag addrs) then
      let s := j.clusters.foldl (fun s c => s.discardFor c i.tag addrs) s
      if j.clusters.all (fun c => !(s.ctxsOf c).any (fun k => k.cfg == i.tag || ((s.evicted c i.tag addrs).any (fun e => e.tag == k.cfg)))) then
        let s := j.clusters.foldl (fun s c => (s.evictFor c i.tag addrs).deliverStream c i.words j.id) s
        { s with jobs := s.jobs.map (fun k =>
            if k.id = j.id then { k with begun := true, tag := i.tag, waiting := j.clusters, failed := none } else k) }
      else s
    else s

/-! ## Contexts (R45, R53, R118) -/

/-- The CTX values free in every cluster of a list (R45). -/
def State.freeCtxs (s : State) (clusters : List Nat) : List (BitVec 8) :=
  let used := (s.contexts.filter (fun k => !k.saved && clusters.any k.rect.contains)).map (fun k => k.ctx)
  ((List.range 255).map (BitVec.ofNat 8)).filter (fun x => !used.contains x)

/-- Whether every cluster of a list can take one more context (R45). -/
def State.ctxRoom (s : State) (clusters : List Nat) : Bool :=
  s.freeCtxs clusters != [] && clusters.all (fun c => decide ((s.ctxsOf c).length < 32))

/-- The bindings that an image has for a port's slots, those of every port first (R112, R118). -/
def bindsFor (binds : List BindEntry) (image : Nat) : List BindEntry :=
  let mine := binds.filter (fun b => b.image.toNat == image)
  mine.filter (fun b => b.port == 0xFF) ++ mine.filter (fun b => b.port != 0xFF)

/-- The value of a binding: a launch base binding, or an address (R118). -/
def BindEntry.address (b : BindEntry) (binds : List Dword) : Dword :=
  if b.kind = 0 then binds.getD b.value.toNat 0 else b.value

/-- The bound base slots of a context are written in every cluster of its rectangle (R118, R406). -/
def State.writeBases (s : State) (k : Ctx) (binds : List BindEntry) (image : Nat) (values : List Dword) : State :=
  let entries := ((bindsFor binds image).map (fun b =>
    let ports := if b.port = 0xFF then List.range 32 else [b.port.toNat]
    ports.map (fun p => (k.ctx.toNat * 256 + p * 8 + b.slot.toNat % 8, b.address values)))).flatten
  k.rect.clusters.foldl (fun s c => s.updRegion c (fun r =>
    { r with bases := entries.foldl (fun t e => t.set e.1 e.2) r.bases })) s

/-- The routines recorded for an object stand in the feature tables of the regions it is launched in, also where a routine runs in its
place (R124, R211, R418). An entry stays: R124 names nothing that would take it out (DESIGN CHOICE, log 126). -/
def State.listFeatures (s : State) (clusters : List Nat) (o : Obj) : State :=
  clusters.foldl (fun s c => s.updRegion c (fun r =>
    { r with features := (r.features ++ o.routines.map (fun e => e.1)).eraseDups })) s

/-- A context of a launch's step comes into being with a CTX that the dispatcher chooses, its base slots written, and its seeds to
follow (R45, R51, R53). -/
def State.addContext (s : State) (l : Launch) (tag : Half) : State :=
  let free := s.freeCtxs l.rect.clusters
  let x := free[Config.ctxChoice s.ticks % max 1 free.length]?.getD 0
  let f := s.fresh
  let k : Ctx := { id := f.1, ctx := x, rect := l.rect, cfg := tag, launch := l.id, trapped := false, killed := false,
                   saved := false, spec := l.spec, seeded := false }
  let s := { f.2 with contexts := f.2.contexts ++ [k] }
  let s := [l.handle, l.object].foldl (fun s h =>
    match s.object? h with
    | some o => s.listFeatures l.rect.clusters o
    | none => s) s
  let binds := ((s.object? l.object).map (fun o => o.binds)).getD []
  (s.writeBases k binds l.image l.binds).dueEvent .seedInjection { id := k.id }

/-! ## Completion (R63, R404, R420) -/

/-- Whether something still runs, or is saved, from an object: a launch holds what its contexts run (R420), and a delivery what it
delivers (R407). -/
def State.objectHeld (s : State) (h : Word) : Bool := s.launches.any (fun l => l.object == h) || s.jobs.any (fun j => j.handle == h)

/-- Retiring objects that nothing holds are freed, and what they registered with them (R124, R420). -/
def State.freeObjects (s : State) : State :=
  let gone := fun (o : Obj) => o.retiring && !s.objectHeld o.handle
  { s with objects := s.objects.filter (fun o => !gone o)
           routines := s.routines.filter (fun e => !s.objects.any (fun o => gone o && o.handle == e.2.1)) }

/-- A launch is over: its packet completes, and the object it held may be freed (R404, R420). -/
def State.completeLaunch (s : State) (l : Launch) (st : PacketStatus) (e : EventRec) : State :=
  let s := { s with launches := s.launches.filter (fun m => m.id != l.id) }
  (s.completePacket l.queue st { e with pseq := l.pseq.toNat } l.notify).freeObjects

/-- Whether a launch has a context, live or saved. -/
def State.hasContext (s : State) (id : Nat) : Bool := s.contexts.any (fun k => k.launch == id)

/-- Whether a condition of a sequencing step holds for an exit value (R119). -/
def SeqStep.holds (e : SeqStep) (exit : Word) : Bool :=
  match e.cond.toNat with
  | 0 => true
  | 1 => exit == e.value
  | 2 => exit != e.value
  | 3 => exit.ult e.value
  | _ => !exit.ult e.value

/-- The step that follows one with an exit value, and its image; none at the end of the sequence (R119). -/
def Obj.nextStep (o : Obj) (step : Nat) (exit : Word) : Option (Nat × Nat) :=
  match o.seq[step]? with
  | none => none
  | some e =>
    let n := (if e.holds exit then e.t else e.f).toNat
    if n = 0xFF then none
    else match o.seq[n]? with
      | some m => if m.image = 0xFF then none else some (n, m.image.toNat)
      | none => none

/-- The first step of an object: step 0 of its program, or image 0 without one (R119). -/
def Obj.firstStep (o : Obj) : Option Nat :=
  match o.seq with
  | [] => some 0
  | e :: _ => if e.image = 0xFF then none else some e.image.toNat

/-! ## The start of a step (R51, R53, R406) -/

/-- Whether a step of a launch can start warm: its image is resident and swept in every cluster (R53). -/
def State.warm (s : State) (l : Launch) (tag : Half) : Bool :=
  l.rect.clusters.all (fun c => s.residentIn c tag && (s.region c).swept && !s.frozen c)

/-- Whether a step of a launch can start: a CTX is free, and it starts warm or its stream can be delivered (R405). -/
def State.canStart (s : State) (l : Launch) (i : Image) : Bool :=
  let clusters := l.rect.clusters
  s.ctxRoom clusters && (s.warm l i.tag || (!l.spec && clusters.all (fun c => s.deliverable c i.tag (streamAddrs i.words))))

/-- The image of a launch's step. -/
def State.launchImage (s : State) (l : Launch) : Option Image := (s.object? l.object).bind (fun o => o.images[l.image]?)

/-- Speculations of other launches on the clusters of a launch are discarded (R384, R395). -/
def State.discardOn (s : State) (clusters : List Nat) : State :=
  s.contexts.foldl (fun s k =>
    if k.spec && !k.killed && clusters.any k.rect.contains then s.discardSpec (s.queueOf k) false else s) s

/-- A launch counts as a use of its configuration (R54). A speculation does not (R383). -/
def State.useResident (s : State) (c : Nat) (tag : Half) : State :=
  let f := s.fresh
  f.2.updRegion c (fun r =>
    { r with residents := r.residents.map (fun e => if e.tag = tag then { e with used := f.1 } else e), asleep := false })

/-- The step of a launch starts where it can (R53, R406): warm, or with a delivery of its stream to every cluster of its rectangle.
Where it cannot, it waits for the dispatcher. -/
def State.startStep (s : State) (l : Launch) : State :=
  match s.launchImage l with
  | none => s.completeLaunch l .handle { evtype := 2 }
  | some i =>
    let clusters := l.rect.clusters
    if !s.canStart l i then s.dueOnce (.event .dispatchSelect {})
    else
      let s := if l.spec then s else s.discardOn clusters
      if s.warm l i.tag then
        let s := if l.spec then s else clusters.foldl (fun s c => s.useResident c i.tag) s
        s.addContext l i.tag
      else if !clusters.all (fun c => s.deliverable c i.tag (streamAddrs i.words)) then s.dueOnce (.event .dispatchSelect {})
      else
        let f := s.fresh
        let j : Job := { id := f.1, queue := none, handle := l.object, clusters := clusters, image := l.image, tag := i.tag,
                         begun := false, launch := some l.id, waiting := [], failed := none }
        let s := { f.2 with jobs := f.2.jobs ++ [j] }
        (s.beginJob j).addContext l i.tag

/-- A launch whose contexts are gone goes on: killed, it completes with KILLED (R419). -/
def State.settleLaunch (s : State) (id : Nat) : State :=
  match s.launches.find? (fun l => l.id == id) with
  | some l =>
    if s.hasContext id then s
    else if l.killed then s.completeLaunch l .killed { evtype := 2 }
    else if s.jobs.any (fun j => j.launch == some id) then s
    else s.startStep l
  | none => s

/-! ## The end of a delivery (R407, R408) -/

/-- A placing delivery has failed: its configuration is cleared in every cluster, and the launch or LOAD completes with STREAM
(R408). -/
def State.failJob (s : State) (j : Job) (c : Nat) (w : Word) : State :=
  let s := { s with jobs := s.jobs.filter (fun k => k.id != j.id) }
  let s := j.clusters.foldl (fun s c => s.dropResident c j.tag) s
  let e : EventRec := { evtype := 2, vala := w, cluster := c }
  match j.launch, j.queue with
  | some id, _ =>
    (match s.launches.find? (fun l => l.id == id) with
     | some l =>
       let s := (s.contexts.filter (fun k => k.launch == id)).foldl State.freeCtx s
       if l.killed then s.completeLaunch l .killed { evtype := 2 } else s.completeLaunch l .stream e
     | none => s)
  | none, some q => (s.completePacket q .stream e false).freeObjects
  | none, none => s.dueOnce (.event .dispatchSelect {})

/-- A placing delivery has ended with OK in every cluster: a LOAD goes on to its next image or completes; seeds of a launch follow the
sweep (R407, R408). -/
def State.passJob (s : State) (j : Job) : State :=
  let others := s.jobs.filter (fun k => k.id != j.id)
  let s := s.dueOnce (.event .dispatchSelect {})
  match j.queue with
  | some q =>
    let count := ((s.object? j.handle).map (fun o => o.images.length)).getD 0
    if j.image + 1 < count then
      { s with jobs := others ++ [{ j with image := j.image + 1, begun := false, waiting := [] }] }
    else ({ s with jobs := others }.completePacket q .ok { evtype := 2 } false).freeObjects
  | none => { s with jobs := others }

/-- A region reports how its stream ended (R408): the failure of the lowest cluster is kept. -/
def State.endDelivery (s : State) (c id : Nat) (w : Word) : State :=
  match s.jobs.find? (fun j => j.id == id) with
  | none => s
  | some j =>
    let failed := if w = 0 then j.failed
      else match j.failed with
        | some f => if f.1 < c then some f else some (c, w)
        | none => some (c, w)
    let j := { j with waiting := j.waiting.filter (fun d => d != c), failed := failed }
    let s := { s with jobs := s.jobs.map (fun k => if k.id = id then j else k) }
    if j.waiting != [] then s
    else match failed with
      | some f => s.failJob j f.1 f.2
      | none => s.passJob j

/-! ## Seeds (R51, R53, R95) -/

/-- The seed ports of a context's configuration in a cluster inject the argument words (R51, R95). -/
def State.seedCluster (s : State) (k : Ctx) (args : List Word) (c : Nat) : State :=
  let r := s.region c
  let mine := ((r.residents.find? (fun e => e.tag == k.cfg)).map (fun e => e.addrs)).getD []
  let ports := (List.range 16).filter (fun n => mine.contains (0x1900 + n) && (s.raw c (0x1900 + n)).enabled)
  let s := s.updRegion c (fun r => { r with exitv := r.exitv.erase k.ctx.toNat })
  ports.foldl (fun s n =>
    let w := s.raw c (0x1900 + n)
    let v : Value := .narrow (args.getD n 0)
    let g := mkTag k.ctx 0 0
    (s.emitTo c (0x1900 + n) (Target.ofHalf w.f1) v g).emitTo c (0x1900 + n) (Target.ofHalf w.f2) v g) s

/-- SEED_INJECTION (R51, R53, R408): once every cluster of the rectangle has ended its stream with OK and swept, the seeds of the
context are injected. A freeze or drain stops them (R421, R423). -/
def execSeedInjection (s : State) : Host.Outcome State Fault Refusal :=
  let x := s.cur
  done (
    match s.contexts.find? (fun k => k.id == x.id) with
    | none => s
    | some k =>
      match s.launchOf k with
      | none => s
      | some l =>
        if k.killed || k.seeded then s
        else if k.saved || s.jobs.any (fun j => j.launch == some l.id)
            || !k.rect.clusters.all (fun c => (s.region c).swept && !s.frozen c) then s.dueEvent .seedInjection x
        else
          let s := k.rect.clusters.foldl (fun s c => s.seedCluster k l.args c) s
          let s := s.updCtx k.id (fun k => { k with seeded := true })
          let s := s.updLaunch l.id (fun l => { l with start := s.refCount, counted := 0, barked := false })
          let s := s.dueEvent .contextComplete { id := k.id }
          if l.wdog = 0 then s else s.dueEvent .watchdog { id := k.id })

/-! ## Completion of a context (R55, R63, R99, R119) -/

/-- Whether the four counts of a context are zero in every cluster of its rectangle (R61, R63). -/
def State.countsZero (s : State) (k : Ctx) : Bool := k.rect.clusters.all (fun c => s.counts c k.ctx == {})

/-- The migrated instructions of a configuration without a live context return to their home stations (R99). -/
def State.returnHome (s : State) (c : Nat) (tag : Half) : State :=
  if (s.ctxsOf c).any (fun k => k.cfg == tag) then s
  else match (s.region c).residents.find? (fun e => e.tag == tag) with
    | some e => e.addrs.foldl (fun s a =>
        match (s.region c).moved.get? a with
        | some b => s.moveStation c b a
        | none => s) s
    | none => s

/-- A context ends: its CTX is free, and the instructions of its configuration return home (R63, R99). -/
def State.endContext (s : State) (k : Ctx) : State :=
  let s := k.rect.clusters.foldl (fun s c => s.returnHome c k.cfg) (s.freeCtx k)
  s.dueOnce (.event .dispatchSelect {})

/-- The exit value of a context's step (R120). -/
def State.exitValue (s : State) (k : Ctx) : Word := (s.region k.rect.origin).exitv.getD k.ctx.toNat 0

/-- The launch of a context that has completed goes on to its next step, or completes (R119, R409). -/
def State.advance (s : State) (k : Ctx) (l : Launch) : State :=
  let next := (s.object? l.object).bind (fun o => o.nextStep l.step (s.exitValue k))
  match next with
  | none => (s.endContext k).completeLaunch l .ok { evtype := 2 }
  | some n =>
    let s := s.endContext k
    if 65536 ≤ l.steps + 1 then s.completeLaunch l .seqlimit { evtype := 2 }
    else
      let l := { l with step := n.1, image := n.2, steps := l.steps + 1 }
      (s.updLaunch l.id (fun _ => l)).startStep l

/-- The counts of a speculation have reached zero: it goes on to its next step where that step's image is resident, and otherwise
waits for its claim, at most 1 ms (R384, R393, R395). -/
def State.restSpec (s : State) (k : Ctx) (l : Launch) : State :=
  let next := (s.object? l.object).bind (fun o => o.nextStep l.step (s.exitValue k))
  let again := s.dueEvent .contextComplete { id := k.id }
  let warm := match next with
    | some n => l.steps + 1 < 65536 && (match (s.object? l.object).bind (fun o => o.images[n.2]?) with
      | some i => s.canStart { l with image := n.2 } i
      | none => false)
    | none => false
  if warm then (s.updFerry l.queue (fun f => { f with spec := f.spec.map (fun x => { x with idle := none }) })).advance k l
  else
    let s := again.updFerry l.queue (fun f =>
      { f with spec := f.spec.map (fun x => { x with idle := some (x.idle.getD s.refCount) }) })
    s.dueOnce (.event .speculationTimeout { queue := l.queue, id := l.id })

/-- CONTEXT_COMPLETE (R63): a context whose four counts are zero in every cluster of its rectangle is complete, and so is a discarded
one (R419). While the device holds events of its queue, it holds the context that raised them (R410). -/
def execContextComplete (s : State) : Host.Outcome State Fault Refusal :=
  let x := s.cur
  done (
    match s.contexts.find? (fun k => k.id == x.id) with
    | none => s
    | some k =>
      if k.killed then
        (if s.countsZero k && !s.heldInRing k then (s.endContext k).settleLaunch k.launch else s.dueOnce (.event .contextComplete x))
      else if k.saved then s
      else if !k.seeded || !s.countsZero k || k.rect.clusters.any (fun c => (s.region c).halted)
          || s.heldInRing k then s.dueOnce (.event .contextComplete x)
      else match s.launchOf k with
        | none => s.endContext k
        | some l => if k.spec then s.restSpec k l else s.advance k l)

/-! ## Killing (R419) -/

/-- The running launch of a queue, speculations apart. -/
def State.runningLaunch (s : State) (q : Nat) : Option Launch := s.launches.find? (fun l => l.queue == q && !l.spec)

/-- The time a step has run so far is counted (R409): while some context of it is live in a region, and no freeze has halted one of its
clusters, since a period never ends during a freeze. -/
def State.settleClock (s : State) (l : Launch) : State :=
  let live := s.contexts.any (fun k => k.launch == l.id && !k.saved && !k.rect.clusters.any (fun c => (s.region c).halted))
  s.updLaunch l.id (fun l => { l with counted := if live then l.counted + (s.refCount - l.start) else l.counted, start := s.refCount })

/-- WATCHDOG (R409): when the units of WDOG have passed for a step whose contexts have not completed, they are TRAPPED and an EVTYPE 2
event is posted; the launch stays running. A speculation's count goes on until its claim. -/
def execWatchdog (s : State) : Host.Outcome State Fault Refusal :=
  let x := s.cur
  done (
    match (s.contexts.find? (fun k => k.id == x.id)).bind (fun k => (s.launchOf k).map (fun l => (k, l))) with
    | none => s
    | some (k, l) =>
      let s := s.settleClock l
      match s.launches.find? (fun m => m.id == l.id) with
      | none => s
      | some l =>
        if l.barked || k.killed then s
        else if l.spec || k.saved || l.counted < l.wdog.toNat * 1024 then s.dueEvent .watchdog x
        else
          let s := (s.updLaunch l.id (fun l => { l with barked := true })).setTrapped k.id
          s.post l.queue { evtype := 2, code := PacketStatus.watchdog.code, queue := l.queue, ctx := k.ctx.toNat,
                           pseq := l.pseq.toNat, raiser := some k.id })

end Sys2Proof.Machine
end

