-- ==== Sys2Proof/Machine/Stream.lean ====
section
/-! DEFINITION. Configuration streams (R64 to R74, R95 to R98): the commands in stream order, the checksum, the check of the whole
configuration, and the configuration-complete sweep (R51). -/

namespace Sys2Proof.Machine

open Sys2Proof

/-! ## Checksum (R70) -/

/-- One bit of the reflected CRC-32. -/
def crcBit (crc : Word) : Word := if crc.getLsbD 0 then (crc >>> 1) ^^^ 0xEDB88320#32 else crc >>> 1

/-- One byte of the reflected CRC-32. -/
def crcByte (crc : Word) (b : Byte) : Word := (List.range 8).foldl (fun c _ => crcBit c) (crc ^^^ b.zeroExtend 32)

/-- The CRC-32 of IEEE 802.3 (R70). -/
def crc32 (bytes : List Byte) : Word := bytes.foldl crcByte 0xFFFFFFFF#32 ^^^ 0xFFFFFFFF#32

/-! ## The end of a stream (R69, R96, R97) -/

/-- The ADDR of a fault of the stream as a whole (R96). -/
def streamAddr : Nat := 0x1FFF

/-- A stream ends with a status other than OK: what it wrote is cleared, with the whole configuration where it amended one; other
resident configurations keep their records (R97). -/
def State.refuseStream (s : State) (c : Nat) (d : Delivery) (w : Word) : State :=
  let s := if d.amend then s.dropResident c d.tag else s
  let s := s.updRegion c (fun r =>
    let held := ((r.residents.map (fun e => e.addrs)).flatten)
    { r with delivery := none, records := r.records.filter (fun e => !(d.written.contains e.1 && !held.contains e.1)) })
  s.endDelivery c d.job w

/-- Whether a stream leaves a station empty: every field of it then reads as 0 (R65, R76). -/
def emptied (a : Nat) (w : RawRecord) : Bool := (classOf? a).isSome && w.f0 == 0

/-- A stream ends with OK: its configuration is resident under its tag, with the records it wrote, and the sweep begins (R51, R65,
R71). -/
def State.acceptStream (s : State) (c : Nat) (d : Delivery) : State :=
  let f := s.fresh
  let s := f.2.updRegion c (fun r =>
    let old := ((r.residents.find? (fun e => e.tag == d.tag)).map (fun e => e.addrs)).getD []
    let e : Resident := { tag := d.tag, addrs := (old ++ d.written).eraseDups, used := f.1 }
    let mine := d.records.filter (fun x => d.written.contains x.1 && !emptied x.1 x.2)
    { r with delivery := none, residents := r.residents.filter (fun x => x.tag != d.tag) ++ [e], sweep := 0, swept := false
             records := mine.foldl (fun t x => t.set x.1 x.2) (r.records.filter (fun x => !d.written.contains x.1)) })
  (s.dueEvent .configSweep { cluster := c }).endDelivery c d.job 0

/-- The configuration that a stream makes: its earlier resident fields and the stream's writes (R96). -/
def State.streamConfig (s : State) (c : Nat) (d : Delivery) : Table RawRecord :=
  let old := (((s.region c).residents.find? (fun e => e.tag == d.tag)).map (fun e => e.addrs)).getD []
  d.records.filter (fun e => d.written.contains e.1 || old.contains e.1)

/-- The addresses that other resident configurations hold. -/
def State.heldByOthers (s : State) (c : Nat) (d : Delivery) : List Nat :=
  (((s.region c).residents.filter (fun e => e.tag != d.tag)).map (fun e => e.addrs)).flatten

/-- A delivery goes on in a phase, its command counted under the checksum. -/
def State.streamOn (s : State) (c : Nat) (d : Delivery) (ph : StreamPhase) (w : Word) : State :=
  s.updRegion c (fun r => { r with delivery := some { d with phase := ph, summed := d.summed ++ bytesOfNat 4 w.toNat } })

/-- A stream-level fault that became known at the command in hand (R96). -/
def State.streamFault (s : State) (c : Nat) (d : Delivery) (fld : Nat) (code : StreamCode) : State :=
  s.refuseStream c d (statusWord streamAddr fld code)

/-- A command of the stream in delivery to the region in hand; a word that belongs to no stream is discarded (R69). -/
def onStream (s : State) (f : Delivery → State) : Host.Outcome State Fault Refusal :=
  done (match (s.region s.cur.cluster).delivery with
    | some d => f d
    | none => s)

/-! ## Patterns (R72 to R74) -/

/-- The offset of a 5-bit field. -/
def offset5 (v : Half) (lo : Nat) : Int := (v.extractLsb' lo 5).toInt

/-- Whether the address of a body write is relative: F1 or F2 with V set, or F3 or F4 of a pull port, in the PE range (R74). -/
def isRelative (fld : Nat) (v : Half) : Bool :=
  (((fld == 1 || fld == 2) && v.getLsbD 15) || ((fld == 3 || fld == 4) && v.extractLsb' 14 2 == 2)) && !v.getLsbD 12

/-- The value that a PE takes from a body write, and whether its target lies in the grid (R74). -/
def bodyValue (pe fld : Nat) (v : Half) : Half × Bool :=
  if isRelative fld v then
    let x : Int := (pe % 32 : Nat) + offset5 v 2
    let y : Int := (pe / 32 : Nat) + offset5 v 7
    if 0 ≤ x ∧ x ≤ 31 ∧ 0 ≤ y ∧ y ≤ 31 then
      ((v &&& 0xE003#16) ||| BitVec.ofNat 16 ((y.toNat * 32 + x.toNat) * 4), true)
    else (v, false)
  else (v, true)

/-- One field of a record is written (R65). -/
def Delivery.write (d : Delivery) (a fld : Nat) (v : Half) : Delivery :=
  { d with records := d.records.set a ((d.records.getD a {}).withField fld v),
           written := if d.written.contains a then d.written else a :: d.written }

/-- A body write in one receiving PE. -/
def Delivery.body (d : Delivery) (pe : Nat) (w : Word) : Delivery :=
  let fld := (w.extractLsb' 16 3).toNat
  let a := 4 * pe + (w.extractLsb' 19 2).toNat
  let v := bodyValue pe fld (w.extractLsb' 0 16)
  let d := d.write a fld v.1
  if v.2 then d else { d with outside := (a, fld) :: d.outside }

/-- A pattern is applied: every body write, in order, in every PE of the list (R72, R73). -/
def Delivery.pattern (d : Delivery) (rects : List (BitVec 10 × BitVec 10)) (writes : List Word) : Delivery :=
  (pesOf rects).foldl (fun d p => writes.foldl (fun d w => d.body p w) d) d

/-! ## The commands (R64, R68, R69) -/

/-- Whether an address has a field (R75): every field of a station, those that R93 and R94 list of a block record and a fixed
element. -/
def populated (a fld : Nat) : Bool :=
  match placeOf a with
  | .station _ | .control => true
  | .moControl => [0, 1, 3, 5].contains fld
  | .trigger => [0, 3, 5].contains fld
  | .exportPort => [0, 1, 3, 4, 5].contains fld
  | .seed => [0, 1, 2, 5].contains fld
  | .blockRecord => decide (fld < 4)
  | .vacant => false

/-- Whether a write of a field is accepted: one of a field that the address has, or one of zero to a field that R93 or R94 leaves
reserved (R4, R75). -/
def accepted (a fld : Nat) (val : Half) : Bool := populated a fld || (val == 0 && populated a 0)

/-- CONFIG_WRITE (R64, R65, R72, R75): one field of a station or record, or a body write of a pattern. -/
def execConfigWrite (addr : BitVec 13) (fld : BitVec 3) (val : Half) (s : State) : Host.Outcome State Fault Refusal :=
  onStream s (fun d =>
    let c := s.cur.cluster
    let w : Word := addr ++ fld ++ val
    match d.phase with
    | .body =>
      if !accepted addr.toNat fld.toNat val then s.refuseStream c d (statusWord addr.toNat fld.toNat .address)
      else s.streamOn c (d.write addr.toNat fld.toNat val) .body w
    | .pattern rects none writes =>
      if rects = [] ∨ 32 ≤ writes.length then s.streamFault c d fld.toNat .order
      else if 3 < addr.toNat then s.refuseStream c d (statusWord addr.toNat fld.toNat .address)
      else s.streamOn c d (.pattern rects none (writes ++ [w])) w
    | _ => s.streamFault c d fld.toNat .order)

/-- BEGIN (R66, R68, R71). -/
def execBeginStream (val : Half) (s : State) : Host.Outcome State Fault Refusal :=
  onStream s (fun d =>
    let c := s.cur.cluster
    if d.phase ≠ .start then s.streamFault c d 0 .order
    else if val = 0 then s.streamFault c d 0 .field
    else s.streamOn c { d with tag := val, amend := s.residentIn c val } .body (controlCommand 0 val))

/-- PATBEGIN (R72): patterns do not nest. Its reserved VAL is ignored, as that of PATEND and END is (R4, R96). -/
def execPatbegin (val : Half) (s : State) : Host.Outcome State Fault Refusal :=
  onStream s (fun d =>
    let c := s.cur.cluster
    if d.phase ≠ .body then s.streamFault c d 1 .order
    else s.streamOn c d (.pattern [] none []) (controlCommand 1 val))

/-- RECTA (R72): at most 16 pairs, before the body. -/
def execRecta (val : Half) (s : State) : Host.Outcome State Fault Refusal :=
  onStream s (fun d =>
    let c := s.cur.cluster
    match d.phase with
    | .pattern rects none [] =>
      if 16 ≤ rects.length then s.streamFault c d 2 .order
      else if val.extractLsb' 10 6 ≠ 0 then s.streamFault c d 2 .field
      else s.streamOn c d (.pattern rects (some (val.extractLsb' 0 10)) []) (controlCommand 2 val)
    | _ => s.streamFault c d 2 .order)

/-- RECTB (R72): an inclusive rectangle whose second corner is not before the first. -/
def execRectb (val : Half) (s : State) : Host.Outcome State Fault Refusal :=
  onStream s (fun d =>
    let c := s.cur.cluster
    match d.phase with
    | .pattern rects (some a) [] =>
      let b := val.extractLsb' 0 10
      if val.extractLsb' 10 6 ≠ 0 ∨ (b.extractLsb' 5 5).toNat < (a.extractLsb' 5 5).toNat
          ∨ (b.extractLsb' 0 5).toNat < (a.extractLsb' 0 5).toNat then s.streamFault c d 3 .field
      else s.streamOn c d (.pattern (rects ++ [(a, b)]) none []) (controlCommand 3 val)
    | _ => s.streamFault c d 3 .order)

/-- PATEND (R72): the body is applied to every PE of the list. -/
def execPatend (val : Half) (s : State) : Host.Outcome State Fault Refusal :=
  onStream s (fun d =>
    let c := s.cur.cluster
    match d.phase with
    | .pattern rects none (w :: ws) =>
      s.streamOn c (d.pattern rects (w :: ws)) .body (controlCommand 4 val)
    | _ => s.streamFault c d 4 .order)

/-- END (R69). -/
def execEndStream (val : Half) (s : State) : Host.Outcome State Fault Refusal :=
  onStream s (fun d =>
    let c := s.cur.cluster
    if d.phase ≠ .body then s.streamFault c d 5 .order
    else s.streamOn c d .ended (controlCommand 5 val))

/-- CHKLO (R69, R70). -/
def execChklo (val : Half) (s : State) : Host.Outcome State Fault Refusal :=
  onStream s (fun d =>
    let c := s.cur.cluster
    if d.phase ≠ .ended then s.streamFault c d 6 .order
    else s.updRegion c (fun r => { r with delivery := some { d with phase := .checked val } }))

/-- CHKHI (R69, R70, R96, R97): the checksum, then the check of the whole configuration; the stream ends. -/
def execChkhi (val : Half) (s : State) : Host.Outcome State Fault Refusal :=
  onStream s (fun d =>
    let c := s.cur.cluster
    match d.phase with
    | .checked lo =>
      if val ++ lo ≠ crc32 d.summed then s.streamFault c d 7 .checksum
      else
        let w := configStatus (s.streamConfig c d) d.outside d.written (s.heldByOthers c d)
        if w = 0 then s.acceptStream c d else s.refuseStream c d w
    | _ => s.streamFault c d 7 .order)

/-- The first stream-control command that a stream in a phase still misses (R69, R72). -/
def StreamPhase.missing : StreamPhase → Nat
  | .start => 0
  | .pattern _ (some _) _ => 3
  | .pattern [] none _ => 2
  | .pattern _ none _ => 4
  | .body => 5
  | .ended => 6
  | .checked _ => 7

/-- STREAM_CUT_SHORT (R69): the words ran out before CHKHI. -/
def execStreamCutShort (s : State) : Host.Outcome State Fault Refusal :=
  onStream s (fun d => s.streamFault s.cur.cluster d d.phase.missing .order)

/-! ## The sweep (R51, R52) -/

/-- CONFIG_SWEEP (R51): one step of the configuration-complete sweep, 0 to 63. After the last, the region is swept, and it examines its
stations for migration from then on (R417). -/
def execConfigSweep (s : State) : Host.Outcome State Fault Refusal :=
  let c := s.cur.cluster
  let r := s.region c
  done (
    if r.swept then s
    else if r.sweep < 63 then
      (s.updRegion c (fun r => { r with sweep := r.sweep + 1 })).dueEvent .configSweep { cluster := c }
    else
      ((s.updRegion c (fun r => { r with sweep := 64, swept := true })).dueOnce
        (.event .migrationSelect { cluster := c })).dueOnce (.event .dispatchSelect {}))

end Sys2Proof.Machine
end

