-- ==== Sys2Proof/Machine/Walk.lean ====
section
/-! DEFINITION. The walk of a request (R315 to R318): its turn in its thread (R346 to R350), then what its kind does; the vault port
(R326) and the service of a demand entry (R415). -/

namespace Sys2Proof.Machine

open Sys2Proof

/-- A request goes on as its kind asks. -/
def State.performReq (s : State) (q : MemReq) (inPort : Bool) : State :=
  match q.kind with
  | .load | .store => s.plainAccess q inPort
  | .fence => if (s.specOf q.cluster q.tag).isSome ∧ q.scope = 4 then s.pauseReq q.id else s.performed q [.narrow 0]
  | .mnop => s.endReq q
  | .flagWrite => s.flagAccess q
  | .pref dest => s.prefetch q dest
  | .pin _ | .unpin _ | .flush _ | .inval _ => s.residencyAccess q inPort
  | .atomic _ | .phaser _ => s.homeAccess q inPort
  | .quarry op => s.quarryAccess q op inPort
  | .tileLoad _ | .tileStore _ => s.tileAccess q inPort
  | .streamRead m => s.streamAccess q m inPort
  | .descriptor k => s.descriptorAccess q k inPort
  | .copyRead k | .copyWrite k => s.copyAccess q k inPort

/-- An operation of another device that was sent back from a line goes on: to the new home of a page in hand-over, once it has moved, or to
its home here (R441). -/
def State.resendFar (s : State) (q : MemReq) : State :=
  let pa := q.va.toNat
  if s.inLentPage pa then
    (if s.moving then s.retryReq q.id else s.sendSpan q s.borrower (s.newHome pa))
  else
    let s := s.updReq q.id (fun q => { q with stage := .away })
    match q.kind with
    | .quarry _ => s.sendQuarry .quarryHomeRequest { cluster := 64, index := pa / 128, id := q.id, go := true }
    | _ => s.dueEvent .atomicAtHome { id := q.id, index := pa }

/-- PAGE_WALK (R315 to R318): an issued request whose turn has come translates and goes on. -/
def execPageWalk (s : State) : Host.Outcome State Fault Refusal :=
  done (match s.req? s.cur.id with
    | some q =>
      if q.stage ≠ .issued then s
      else if q.cluster = 64 then s.resendFar q
      else if s.isGone q then s.abandonReq q
      else if s.mayPerform q then s.performReq q false
      else s.retryReq q.id
    | none => s)

/-- VAULT_ACCESS (R326, R360): an aperture access reaches the vault port of the cluster that its address names, after those that its memory
port sent there before it. -/
def execVaultAccess (s : State) : Host.Outcome State Fault Refusal :=
  done (match s.req? s.cur.id with
    | some q =>
      if q.stage ≠ .issued then s
      else if s.isGone q then s.abandonReq q
      else if s.portBehind q then s.dueEvent .vaultAccess s.cur
      else s.performReq q true
    | none => s)

/-- The entry of the free-page ring that comes next (R398): FPCONS mod 512; and the page that it holds. -/
def State.freePageAt (s : State) : Nat := s.regs.fpbase.toNat + 8 * (s.regs.fpcons.toNat % 512)

def State.nextFreePage (s : State) : Nat := s.readPhysNat s.freePageAt 8

/-- A demand entry is serviced (R415): a page is taken from the free-page ring and written with zeros, and the leaf is written, W = 1,
MT = 0b00, A = 1, where the entry still is a demand entry. -/
def State.servicePage (s : State) (entry : Nat) : State :=
  let old := s.readPhysNat entry 8
  if s.hasFreePage && old % 2 == 0 && bits old 3 2 == 1 then
    let page := s.nextFreePage
    let s := { s with regs := { s.regs with fpcons := s.regs.fpcons + 1 } }
    let s := s.dropPage (page / 65536)
    let s := { s with mem := s.mem.filter (fun e => decide (e.1 < page) || decide (page + 65536 ≤ e.1)) }
    let leaf := bits page 51 16 * 65536 + 0x47
    s.writePhys entry (bytesOfNat 8 leaf)
  else s

/-- A request whose demand entry has been serviced goes on. In a freeze it stays at its port, to be saved as translated (R429). -/
def State.afterService (s : State) (q : MemReq) (va : Nat) : State :=
  if (s.region q.cluster).halted then
    match s.translate q.cluster q.tag (s.rootOf q.cluster q.tag) va q.writes with
    | .ok t => s.updReq q.id (fun q => { q with stage := .withdrawn, early := some (va, t) })
    | .error _ => s.retryReq q.id
  else s.retryReq q.id

/-- DEMAND_PAGE_SERVICE (R415, R416): the entry is serviced and the request goes on, with no event; the operation of a
streamed operand begins again, and the other half of a pair with it. Where the ring has run empty, the request meets its fault. An entry
in the page in hand-over, of the table or of the ring, is read and written at its new home (R338). -/
def execDemandPageService (s : State) : Host.Outcome State Fault Refusal :=
  let x := s.cur
  let lines := [x.index / 128, s.freePageAt / 128]
  if !s.linesHere lines then done ((s.askFar lines).dueEvent .demandPageService x)
  else
  let s := (s.servicePage x.index).useFar lines
  done (match s.req? x.id with
    | some q =>
      match q.kind with
      | .streamRead m => (s.putOffBoth q.cluster m none).retryMo q.cluster m
      | _ => s.afterService q (x.amount.getD q.va.toNat)
    | none => s)

end Sys2Proof.Machine
end

