-- ==== Sys2Proof/Machine/Loader.lean ====
section
/-! DEFINITION. The dispatcher's own accesses to a queue's address space (R400, R401), and the loader of .dxo objects (R115 to R128). -/

namespace Sys2Proof.Machine

open Sys2Proof

/-! ## The dispatcher's accesses (R400) -/

/-- A fault of an access of the dispatcher: the address, and the KIND of its event (R400, R410). -/
structure HostFault where
  va   : Nat
  kind : Nat
  deriving DecidableEq, Repr

/-- A translation through a queue's ROOT, with a demand entry serviced where PFHOST is 0 (R400, R415). The fuel allows one service. -/
def State.queueWalk : Nat → State → Nat → Nat → Bool → Except HostFault Translation × State
  | 0, s, _, va, write => (.error { va := va, kind := if write then 1 else 0 }, s)
  | fuel + 1, s, q, va, write =>
    let k := s.queue q
    let kind := if write then 1 else 0
    if 2 ^ 52 ≤ va ∨ inReserve va then (.error { va := va, kind := kind }, s)
    else match s.walk k.root.toNat va with
      | .demand entry =>
        if s.hasFreePage ∧ !k.qctl.getLsbD 4 then State.queueWalk fuel (s.servicePage entry) q va write
        else (.error { va := va, kind := kind }, s)
      | .fault _ m => (.error { va := va, kind := if m then 4 else kind }, s)
      | .leaf addr entry level =>
        match leafFault va entry level write with
        | some _ => (.error { va := va, kind := kind }, s)
        | none =>
          let pa := entry / 2 ^ 16 % 2 ^ 36 * 65536 + va % 2 ^ pageBits level
          if s.physPlace pa = .reserved then (.error { va := va, kind := kind }, s)
          else
            let want := entry ||| 0x40 ||| (if write then 0x80 else 0)
            let s := if want = entry then s
              else if s.inLentPage addr then s.forwardMark addr entry want else s.writePhys addr (bytesOfNat 8 want)
            (.ok { pa := pa, leaf := want, level := level, entry := addr, walked := [] }, s)

/-- The translation of an address of a queue. -/
def State.queueTranslate (s : State) (q va : Nat) (write : Bool) : Except HostFault Translation × State :=
  State.queueWalk 2 s q va write

/-- The lines that the walk of an address of a queue reads: of table entries, and of the free-page ring where it services a demand entry
(R400, R415). -/
def State.queueTables (s : State) (q va : Nat) : List Nat :=
  tableLines (s.walkLines (s.queue q).root.toNat va) ++ (match s.walk (s.queue q).root.toNat va with
    | .demand _ => [s.freePageAt / 128]
    | _ => [])

/-- The lines in the page in hand-over that an access of a queue to n bytes from an address reads (R338): of its tables and, for a read, of
its bytes. While some table is not here, those after it are not known yet. -/
def State.queueLines (s : State) (q va n : Nat) (read : Bool) : List Nat :=
  if s.lentPage.isNone then []
  else ((List.range ((va + n - 1) / 65536 - va / 65536 + 1)).map (fun i =>
    let a := if i = 0 then va else (va / 65536 + i) * 65536
    let e := min (va + n) ((va / 65536 + i + 1) * 65536)
    s.queueTables q a ++ (match s.walk (s.queue q).root.toNat a with
      | .leaf _ entry level =>
        if read then linesOf (entry / 2 ^ 16 % 2 ^ 36 * 65536 + a % 2 ^ pageBits level) (e - a) else []
      | _ => []))).flatten.filter (fun l => s.inLentPage (l * 128))

/-- Whether a physical address is local HBM4 or host memory, which the dispatcher reads and writes itself. -/
def State.within (s : State) (pa : Nat) : Bool := s.physPlace pa == .hbm || s.physPlace pa == .host

/-- Bytes read from a queue's address space, a page at a time. The fuel is the number of pages. -/
def State.queueRead : Nat → State → Nat → Nat → Nat → Except HostFault (List Byte) × State
  | 0, s, _, _, _ => (.ok [], s)
  | fuel + 1, s, q, va, n =>
    if n = 0 then (.ok [], s)
    else match s.queueTranslate q va false with
      | (.error f, s) => (.error f, s)
      | (.ok t, s) =>
        let k := min n (65536 - va % 65536)
        if !s.within t.pa then (.error { va := va, kind := 0 }, s)
        else
          let here := s.readPhysBytes t.pa k
          match State.queueRead fuel s q (va + k) (n - k) with
          | (.ok rest, s) => (.ok (here ++ rest), s)
          | (.error f, s) => (.error f, s)

/-- Bytes written to a queue's address space; none of them where one has no place. The fuel is the number of pages. -/
def State.queueWrite : Nat → State → Nat → Nat → List Byte → Except HostFault Unit × State
  | 0, s, _, _, _ => (.ok (), s)
  | fuel + 1, s, q, va, bytes =>
    if bytes = [] then (.ok (), s)
    else match s.queueTranslate q va true with
      | (.error f, s) => (.error f, s)
      | (.ok t, s) =>
        let k := min bytes.length (65536 - va % 65536)
        if !s.within t.pa then (.error { va := va, kind := 1 }, s)
        else match State.queueWrite fuel s q (va + k) (bytes.drop k) with
          | (.ok _, s) => (.ok (), s.writePhys t.pa (bytes.take k))
          | (.error f, s) => (.error f, s)

/-- The number of pages that a run of bytes can meet. -/
def pagesOf (n : Nat) : Nat := n / 65536 + 2

/-- A packet completes with FORMAT for a fault of one of its addresses: the event carries the address and the access (R400). -/
def State.failAddress (s : State) (q : Nat) (f : HostFault) : State :=
  s.completePacket q .format { evtype := 2, va := f.va, kind := f.kind } false

/-! ## The container (R115 to R122) -/

/-- The status codes of R127. -/
inductive LoadStatus where
  | ok | signature | format | feature | undefined | memory | relocRange | tag
  deriving DecidableEq, Repr

/-- The number of a load status (R127). -/
def LoadStatus.code : LoadStatus → Nat
  | .ok => 0 | .signature => 1 | .format => 2 | .feature => 3 | .undefined => 4 | .memory => 5 | .relocRange => 6 | .tag => 7

/-- A directory entry (R115). -/
structure Section where
  type   : Nat
  offset : Nat
  size   : Nat
  count  : Nat
  deriving DecidableEq, Repr

/-- A little-endian field of an object. -/
def objNat (b : List Byte) (off n : Nat) : Nat := natOfBytes ((b.drop off).take n)

/-- Bytes of an object. -/
def objBytes (b : List Byte) (off n : Nat) : List Byte := (b.drop off).take n

/-- The directory of an object (R115). -/
def objSections (b : List Byte) : List Section :=
  (List.range (min (objNat b 4 4) 4096)).map (fun i =>
    { type := objNat b (64 + 16 * i) 4, offset := objNat b (68 + 16 * i) 4, size := objNat b (72 + 16 * i) 4,
      count := objNat b (76 + 16 * i) 4 })

/-- The sections of a type. -/
def ofType (ss : List Section) (t : Nat) : List Section := ss.filter (fun k => k.type == t)

/-- The signature section: the last of the directory (R116), of 96 bytes (R126). An object without one is reported as SIGNATURE, since
the signature is checked before anything else: DESIGN CHOICE, log 104. -/
def signatureOf (b : List Byte) : Option Section := (objSections b).getLast?.filter (fun k => k.type == 9 && k.size == 96)

/-- An object's signature is good, under a key that the device trusts (R126, R451). -/
def State.signed (s : State) (b : List Byte) : Bool :=
  match signatureOf b with
  | some k =>
    let key := objBytes b k.offset 32
    decide (k.offset + 96 ≤ b.length) && s.toll.keys.any (fun e => e.2 == key)
      && edVerify key (b.take k.offset) (objBytes b (k.offset + 32) 64)
  | none => false

/-- The words of a byte range. -/
def wordsOf (b : List Byte) (off n : Nat) : List Word := (List.range n).map (fun i => BitVec.ofNat 32 (objNat b (off + 4 * i) 4))

/-- An image of the image section: tag, flags, word count and word offset, in words from the start of the section (R117). -/
def imageOf (b : List Byte) (k : Section) (i : Nat) : Image :=
  let d := k.offset + 16 * i
  { tag := BitVec.ofNat 16 (objNat b d 2), amend := (objNat b (d + 2) 1).testBit 0,
    words := wordsOf b (k.offset + 4 * objNat b (d + 8) 4) (objNat b (d + 4) 4) }

/-- Whether the words of a stream end exactly at its CHKHI (R69, R117). Every other break of R69's order shows at delivery. -/
def streamForm (ws : List Word) : Bool :=
  let isHi := fun (w : Word) => decide (w.extractLsb' 16 16 = 0xFFFF#16)
  (ws.getLast?.map isHi).getD false && !ws.dropLast.any isHi

/-- Whether the words of an image lie inside its section. -/
def imageInside (b : List Byte) (k : Section) (i : Nat) : Bool :=
  let d := k.offset + 16 * i
  decide (4 * (objNat b (d + 8) 4 + objNat b (d + 4) 4) ≤ k.size)

/-- A binding of the port binding table (R118). -/
def bindOf (b : List Byte) (k : Section) (i : Nat) : BindEntry :=
  let d := k.offset + 16 * i
  { image := BitVec.ofNat 8 (objNat b d 1), port := BitVec.ofNat 8 (objNat b (d + 1) 1),
    slot := BitVec.ofNat 8 (objNat b (d + 2) 1), kind := BitVec.ofNat 8 (objNat b (d + 3) 1),
    value := BitVec.ofNat 64 (objNat b (d + 8) 8) }

/-- A step of the sequencing program (R119). -/
def stepOf (b : List Byte) (k : Section) (i : Nat) : SeqStep :=
  let d := k.offset + 16 * i
  { image := BitVec.ofNat 8 (objNat b d 1), cond := BitVec.ofNat 8 (objNat b (d + 1) 1),
    t := BitVec.ofNat 8 (objNat b (d + 2) 1), f := BitVec.ofNat 8 (objNat b (d + 3) 1),
    value := BitVec.ofNat 32 (objNat b (d + 4) 4) }

/-- A symbol as the section holds it (R121). -/
structure RawSymbol where
  name  : List Byte
  sect  : Nat
  bind  : Nat
  value : Nat
  deriving DecidableEq, Repr

/-- A symbol of the symbols section. -/
def symbolOf (b : List Byte) (k : Section) (i : Nat) : RawSymbol :=
  let d := k.offset + 16 * i
  { name := (objBytes b (k.offset + objNat b d 4) (k.size - objNat b d 4)).takeWhile (fun c => c != 0),
    sect := objNat b (d + 4) 2, bind := objNat b (d + 6) 1, value := objNat b (d + 8) 8 }

/-- A relocation (R122). -/
structure Reloc where
  sect   : Nat
  kind   : Nat
  offset : Nat
  sym    : Nat
  addend : Int
  deriving DecidableEq, Repr

/-- A relocation of the relocations section. -/
def relocOf (b : List Byte) (k : Section) (i : Nat) : Reloc :=
  let d := k.offset + 16 * i
  { sect := objNat b d 2, kind := objNat b (d + 2) 1, offset := objNat b (d + 4) 4, sym := objNat b (d + 8) 4,
    addend := (BitVec.ofNat 32 (objNat b (d + 12) 4)).toInt }

/-- The entries of the one section of a type, or none where the object has no such section. -/
def entriesOf {α : Type} (b : List Byte) (ss : List Section) (t : Nat) (f : List Byte → Section → Nat → α) : List α :=
  match (ofType ss t).head? with
  | some k => (List.range k.count).map (f b k)
  | none => []

/-- The 512 bits of the required-feature mask that are set, in rising order (R124). -/
def maskBits (mask : List Byte) : List Nat :=
  (List.range 512).filter (fun n => (mask.getD (n / 8) 0).getLsbD (n % 8))

/-- A binding of the feature section: bit and symbol (R124). -/
def featureBind (b : List Byte) (k : Section) (i : Nat) : Nat × Nat :=
  (objNat b (k.offset + 68 + 8 * i) 2, objNat b (k.offset + 72 + 8 * i) 4)

/-- What an object holds, read from its bytes. -/
structure Parsed where
  sections : List Section
  images   : List Image
  binds    : List BindEntry
  seq      : List SeqStep
  relocs   : List Reloc
  symbols  : List RawSymbol
  required : List Nat
  features : List (Nat × Nat)
  deriving DecidableEq, Repr

/-- An object read from its bytes. -/
def parseObject (b : List Byte) : Parsed :=
  let ss := objSections b
  let feat := (ofType ss 1).head?
  { sections := ss, images := entriesOf b ss 3 imageOf, binds := entriesOf b ss 4 bindOf, seq := entriesOf b ss 5 stepOf,
    relocs := entriesOf b ss 6 relocOf, symbols := entriesOf b ss 7 symbolOf,
    required := (feat.map (fun k => maskBits (objBytes b k.offset 64))).getD [],
    features := (feat.map (fun k => (List.range (objNat b (k.offset + 64) 4)).map (featureBind b k))).getD [] }

/-! ## FORMAT checks (R115 to R124) -/

/-- The counts per object of R116. -/
def sectionCounts (ss : List Section) : Bool :=
  let n := fun (t : Nat) => (ofType ss t).length
  ss.all (fun k => decide (1 ≤ k.type) && decide (k.type ≤ 9)) && n 1 == 1 && decide (n 2 ≤ 1) && n 3 == 1 && decide (n 4 ≤ 1)
    && decide (n 5 ≤ 1) && decide (n 6 ≤ 1) && n 7 == 1 && decide (n 8 ≤ 255) && n 9 == 1

/-- The bytes that the entries of a section take. -/
def entryBytes (b : List Byte) (k : Section) : Nat :=
  match k.type with
  | 1 => 68 + 8 * objNat b (k.offset + 64) 4
  | 3 | 4 | 5 | 6 | 7 => 16 * k.count
  | _ => 0

/-- The header and the directory (R115, R116). A header whose SIZE is not the packet's SIZE fails with FORMAT: DESIGN CHOICE, log
105; so does one with another MAGIC, with NSECT outside 1 to 4,096 or with an OFFSET that is no multiple of 8, to which R115 gives no fate:
DESIGN CHOICE, log 123. -/
def headerOk (b : List Byte) : Bool :=
  let ss := objSections b
  objBytes b 0 4 == [0x44, 0x58, 0x4F, 0x00] && decide (1 ≤ objNat b 4 4) && decide (objNat b 4 4 ≤ 4096)
    && objNat b 8 8 == b.length && sectionCounts ss
    && ss.all (fun k => k.offset % 8 == 0 && decide (k.offset + k.size ≤ b.length) && decide (entryBytes b k ≤ k.size))
    && (ss.getLast?.map (fun k => k.type == 9 && k.offset + k.size == b.length)).getD false

/-- A binding that R118 accepts. R118 gives FORMAT for KIND alone; an IMAGE, PORT, SLOT or VALUE outside its range fails so too: DESIGN
CHOICE, log 123. -/
def bindOk (images : Nat) (e : BindEntry) : Bool :=
  decide (e.image.toNat < images) && (decide (e.port.toNat < 32) || e.port == 0xFF) && decide (e.slot.toNat < 8)
    && (e.kind == 1 || (e.kind == 0 && decide (e.value.toNat < 8)))

/-- A sequencing step with a COND of R119 that names images and steps of its object. R119 gives no fate to any other; the load fails with
FORMAT: DESIGN CHOICE, log 102. -/
def stepOk (images steps : Nat) (e : SeqStep) : Bool :=
  let next := fun (n : Byte) => n == 0xFF || decide (n.toNat < steps)
  (e.image == 0xFF || decide (e.image.toNat < images)) && decide (e.cond.toNat ≤ 4) && next e.t && next e.f

/-- The 4-byte word at an offset of a section. -/
def wordAt (b : List Byte) (k : Section) (off : Nat) : Word := BitVec.ofNat 32 (objNat b (k.offset + off) 4)

/-- A relocation that R122 accepts: KIND, the section and the place it patches, its symbol. Where R122 gives no fate (an ABS64 outside a
data or binding section, a place outside its section, a patched word of another kind, a symbol or image that the object does not have)
the load fails with FORMAT: DESIGN CHOICE, log 103. -/
def relocOk (b : List Byte) (p : Parsed) (r : Reloc) : Bool :=
  match p.sections[r.sect]? with
  | none => false
  | some k =>
    let w := wordAt b k r.offset
    let field := fun (w : Word) (n : Nat) => (w.extractLsb' 16 3).toNat == n && w.extractLsb' 19 13 != 0x1FFF#13
    let next := wordAt b k (r.offset + 4)
    let ext := (p.symbols[r.sym]?.map (fun y => y.bind == 2)).getD false
    decide (r.kind ≤ 4) && (r.kind == 4 || decide (r.sym < p.symbols.length))
      && !((r.kind == 2 || r.kind == 3) && ext)
      && (match r.kind with
          | 0 => (k.type == 8 || k.type == 4) && decide (r.offset + 8 ≤ k.size)
          | 1 | 2 => k.type == 3 && decide (r.offset + 8 ≤ k.size) && field w 6 && field next 7
              && w.extractLsb' 19 13 == next.extractLsb' 19 13
          | 3 => k.type == 3 && decide (r.offset + 4 ≤ k.size) && field w 6
          | _ => k.type == 3 && decide (r.offset + 4 ≤ k.size) && w.extractLsb' 16 16 == 0xFFF8#16
              && decide (0 ≤ r.addend) && decide (r.addend < p.images.length))

/-- The handle of the object whose graph a symbol imports; none where it is no such extern (R124). Where several loaded objects have a
graph symbol of the name, the one loaded first is the routine, a retiring one too: DESIGN CHOICE, log 124. -/
def State.routineOf (s : State) (p : Parsed) (sym : Nat) : Option Word :=
  match p.symbols[sym]? with
  | some y =>
    if y.bind = 2 then
      (s.objects.find? (fun o => o.symbols.any (fun g => g.graph && g.bind == 1 && g.name == y.name))).map (fun o => o.handle)
    else none
  | none => none

/-- The FORMAT checks of an object (R115 to R124). A symbol that is no extern with a SECT beyond the directory, and a feature binding with a
BIT of 512 or above, fail with FORMAT, though R121 and R124 give them no fate: DESIGN CHOICE, log 123. -/
def State.formatOk (s : State) (b : List Byte) : Bool :=
  headerOk b &&
    (let p := parseObject b
     let bits := p.features.map (fun e => e.1)
     decide (1 ≤ p.images.length) && decide (p.images.length ≤ 16)
      && ((ofType p.sections 3).all (fun k => (List.range k.count).all (fun i => imageInside b k i)))
      && p.images.all (fun i => streamForm i.words)
      && p.binds.all (bindOk p.images.length) && decide (p.seq.length ≤ 64)
      && p.seq.all (stepOk p.images.length p.seq.length)
      && p.symbols.all (fun y => decide (y.bind ≤ 2) && (y.bind == 2 || decide (y.sect < p.sections.length)))
      && p.relocs.all (relocOk b p)
      && p.features.all (fun e => decide (e.1 < 512) && (s.routineOf p e.2).isSome)
      && decide (bits.eraseDups.length = bits.length))

/-! ## Features, externs and placement (R124, R127) -/

/-- The routine of a required bit that the device lacks: the object's own binding, or one registered by a loaded object (R124). Of
several registrations the latest counts: DESIGN CHOICE, log 107. -/
def State.routineFor (s : State) (p : Parsed) (bit : Nat) : Option Word :=
  match p.features.find? (fun e => e.1 == bit) with
  | some e => s.routineOf p e.2
  | none => (s.routines.find? (fun e => e.1 == bit)).map (fun e => e.2.2)

/-- The required bits that the device's mask lacks (R125). -/
def missingBits (p : Parsed) : List Nat := p.required.filter (fun n => !decide (n < 12))

/-- The symbol of a loaded object that an extern names: that of the object loaded first, where several loaded objects, retiring ones
included, have the name: DESIGN CHOICE, log 106. -/
def State.findSymbol (s : State) (name : List Byte) : Option Symbol :=
  (s.objects.filterMap (fun o => o.symbols.find? (fun y => y.bind == 1 && y.name == name))).head?

/-- The bytes that a data section takes in memory: those it holds, and zeros up to its count. -/
def Section.extent (k : Section) : Nat := max k.size k.count

/-- The first 64 KiB page from `page` on where a section of a size lies in local HBM4 apart from the ranges held; past the end of local
memory the search goes on at page 0, once. The fuel is one more than twice the number of ranges, which each pass can meet once. -/
def findRoom : Nat → List (Nat × Nat) → Nat → Nat → Bool → Option Nat
  | 0, _, _, _, _ => none
  | fuel + 1, held, size, page, again =>
    let addr := page * 65536
    if 2 ^ 39 < addr + size then (if again then findRoom fuel held size 0 false else none)
    else match held.find? (fun e => decide (e.1 < addr + size) && decide (addr < e.1 + e.2)) with
      | none => some addr
      | some e => findRoom fuel held size ((e.1 + e.2 + 65535) / 65536) again

/-- The data sections placed in turn, each at 64 KiB (R127): directory index, address and extent. Each takes the first room from the page
given; none where a section has no room anywhere in local memory, a shortfall. -/
def placeFrom (page : Nat) : List (Nat × Section) → List (Nat × Nat) → Option (List (Nat × Nat × Nat))
  | [], _ => some []
  | (i, k) :: rest, held =>
    if k.type = 8 then
      match findRoom (2 * held.length + 2) held k.extent page true with
      | none => none
      | some a => (placeFrom page rest (held ++ [(a, k.extent)])).map (fun l => (i, a, k.extent) :: l)
    else placeFrom page rest held

/-- The memory that loaded objects hold. -/
def State.heldSections (s : State) : List (Nat × Nat) := (s.objects.map (fun o => o.sections)).flatten

/-- The places of an object's data sections, from a page of the loader's choice or, where they do not all fit so, from page 0; none at a
shortfall (R127). -/
def State.placeSections (s : State) (p : Parsed) : Option (List (Nat × Nat × Nat)) :=
  let ss := (List.range p.sections.length).zip p.sections
  (placeFrom (Config.placement s.ticks % 2 ^ 23) ss s.heldSections).or (placeFrom 0 ss s.heldSections)

/-- The address of a symbol, and its offset in its section (R121, R122). The address is the physical one of the section's place, since the
loader places sections in local HBM4 and R127 gives them no virtual one: DESIGN CHOICE, log 125. -/
def State.symbolAddr (s : State) (p : Parsed) (places : List (Nat × Nat)) (sym : Nat) : Nat × Nat :=
  match p.symbols[sym]? with
  | none => (0, 0)
  | some y =>
    if y.bind = 2 then (((s.findSymbol y.name).map (fun g => g.value.toNat)).getD 0, 0)
    else ((((places.find? (fun e => e.1 == y.sect)).map (fun e => e.2)).getD 0) + y.value, y.value)

/-! ## Relocation (R122, R123) -/

/-- The value of a relocation, before it is fitted. -/
def State.relocValue (s : State) (p : Parsed) (places : List (Nat × Nat)) (r : Reloc) : Int :=
  let a := s.symbolAddr p places r.sym
  ((if r.kind ≤ 1 then a.1 else a.2 : Nat) : Int) + r.addend

/-- Whether a relocation's value fits its field (R122). -/
def relocFits (kind : Nat) (v : Int) : Bool :=
  match kind with
  | 1 | 2 => decide (0 ≤ v) && decide (v < 2 ^ 32)
  | 3 => decide (-32768 ≤ v) && decide (v ≤ 32767)
  | _ => true

/-- Bytes of a list replaced from an offset. -/
def patchBytes (b : List Byte) (off : Nat) (v : List Byte) : List Byte := b.take off ++ v ++ b.drop (off + v.length)

/-- One relocation applied to the object's bytes; a TAG takes the tag assigned to its image (R122). -/
def State.applyReloc (s : State) (p : Parsed) (places : List (Nat × Nat)) (tags : List Half) (b : List Byte) (r : Reloc) :
    List Byte :=
  match p.sections[r.sect]? with
  | none => b
  | some k =>
    let v := s.relocValue p places r
    let off := k.offset + r.offset
    let low := bytesOfNat 2 (v % 2 ^ 16).toNat
    match r.kind with
    | 0 => patchBytes b off (bytesOfNat 8 (v % 2 ^ 64).toNat)
    | 1 | 2 => patchBytes (patchBytes b off low) (off + 4) (bytesOfNat 2 (v / 2 ^ 16 % 2 ^ 16).toNat)
    | 3 => patchBytes b off low
    | _ => patchBytes b off (bytesOfNat 2 (tags.getD r.addend.toNat 0).toNat)

/-! ## Tags (R128) -/

/-- The tags that loaded objects hold; an amendment holds none. -/
def State.tagsHeld (s : State) : List Half := (s.objects.map (fun o => (o.images.filter (fun i => !i.amend)).map (fun i => i.tag))).flatten

/-- The object that holds a tag. -/
def State.tagOwner (s : State) (t : Half) : Option Obj :=
  s.objects.find? (fun o => o.images.any (fun i => !i.amend && i.tag == t))

/-- A free tag that the loader chooses. -/
def chooseTag (held : List Half) (n : Nat) : Half :=
  let free := ((List.range 65535).map (fun i => BitVec.ofNat 16 (i + 1))).filter (fun t => !held.contains t)
  free[n % max 1 free.length]?.getD 0

/-- The tags of an object's images, assigned where the descriptor leaves them open (R117, R128). -/
def assignTags (held : List Half) (n : Nat) : List Image → List Half
  | [] => []
  | i :: rest =>
    let t := if i.tag = 0 ∧ !i.amend then chooseTag held n else i.tag
    t :: assignTags (t :: held) n rest

/-- The checks of R128 on the tags that the images of an object fix, with the key that signed it. Two images of one object that fix one
tag fail with TAG as well, of which R128 says nothing: DESIGN CHOICE, log 109. -/
def State.tagsOk (s : State) (images : List Image) (key : List Byte) : Bool :=
  let fixed := (images.filter (fun i => i.tag != 0 && !i.amend)).map (fun i => i.tag)
  decide (fixed.eraseDups.length = fixed.length) && fixed.all (fun t => !s.tagsHeld.contains t)
    && (images.filter (fun i => i.amend)).all (fun i => match s.tagOwner i.tag with | some o => o.key == key | none => false)

/-! ## Commit (R127, R128) -/

/-- The CRC of the words before a stream's CHKLO stored in its CHKLO and CHKHI (R70, R117). -/
def withCrc (ws : List Word) : List Word :=
  let body := ws.takeWhile (fun w => decide (w.extractLsb' 16 16 ≠ 0xFFFE#16))
  let crc := crc32 ((body.map (fun w => bytesOfNat 4 w.toNat)).flatten)
  ws.map (fun w =>
    if w.extractLsb' 16 16 = 0xFFFE#16 then controlCommand 6 (crc.extractLsb' 0 16)
    else if w.extractLsb' 16 16 = 0xFFFF#16 then controlCommand 7 (crc.extractLsb' 16 16)
    else w)

/-- A free handle that the loader chooses: not zero, and no loaded object's. The fuel is the number of objects. -/
def freeHandle : Nat → List Word → Nat → Word
  | 0, _, n => BitVec.ofNat 32 (n % (2 ^ 32 - 1) + 1)
  | fuel + 1, used, n =>
    let h : Word := BitVec.ofNat 32 (n % (2 ^ 32 - 1) + 1)
    if used.contains h then freeHandle fuel used (n + 1) else h

/-- The data sections of an object are written to memory, zeros after what they hold (R127). -/
def State.writeSections (s : State) (b : List Byte) (p : Parsed) (places : List (Nat × Nat)) : State :=
  places.foldl (fun s e =>
    match p.sections[e.1]? with
    | some k => s.writePhys e.2 (objBytes b k.offset k.size ++ List.replicate (k.extent - k.size) 0)
    | none => s) s

/-- A symbol of a loaded object, with its address. A symbol defined in the image section is the graph symbol (R112 names it, R121 gives it
no mark): DESIGN CHOICE, log 108. -/
def State.loadedSymbol (s : State) (p : Parsed) (places : List (Nat × Nat)) (i : Nat) (y : RawSymbol) : Symbol :=
  { name := y.name, bind := BitVec.ofNat 8 y.bind, value := BitVec.ofNat 64 (s.symbolAddr p places i).1,
    graph := y.bind != 2 && ((p.sections[y.sect]?).map (fun k => k.type == 3)).getD false }

/-- The loader, in the order of R127: a status, and the handle of the object where it is OK. -/
def State.loadObject (s : State) (va : Dword) (b : List Byte) : LoadStatus × Word × State :=
  if !s.signed b then (.signature, 0, s)
  else if !s.formatOk b then (.format, 0, s)
  else
    let p := parseObject b
    let sig := (signatureOf b).getD { type := 9, offset := 0, size := 96, count := 1 }
    let key := objBytes b sig.offset 32
    let mark := objBytes b (sig.offset + 32) 64
    match s.objects.find? (fun o => o.obj == va && o.sig == mark && o.key == key && !o.retiring) with
    | some o =>
      (.ok, o.handle, { s with objects := s.objects.map (fun (k : Obj) => if k.handle = o.handle then { k with refs := k.refs + 1 } else k) })
    | none =>
      let missing := missingBits p
      let routines := missing.map (fun n => (n, s.routineFor p n))
      let found := s.placeSections p
      let places := (found.getD []).map (fun e => (e.1, e.2.1))
      let spots := (found.getD []).map (fun e => e.2)
      let fields := p.relocs.filter (fun r => r.kind != 4)
      if routines.any (fun e => e.2.isNone) then (.feature, 0, s)
      else if (p.symbols.filter (fun y => y.bind == 2)).any (fun y => (s.findSymbol y.name).isNone) then (.undefined, 0, s)
      else if found.isNone then (.memory, 0, s)
      else if fields.any (fun r => !relocFits r.kind (s.relocValue p places r)) then (.relocRange, 0, s)
      else if !s.tagsOk p.images key then (.tag, 0, s)
      else
        let tags := assignTags (s.tagsHeld ++ p.images.map (fun i => i.tag)) (Config.handleChoice (s.ticks + 1)) p.images
        let b := p.relocs.foldl (s.applyReloc p places tags) b
        let done := parseObject b
        let handle := freeHandle s.objects.length (s.objects.map (fun o => o.handle)) (Config.handleChoice s.ticks)
        let o : Obj :=
          { handle := handle, obj := va, sig := mark, key := key,
            images := (done.images.zip tags).map (fun e => { e.1 with tag := e.2, words := withCrc e.1.words }),
            binds := done.binds, seq := done.seq,
            symbols := ((List.range p.symbols.length).zip p.symbols).map (fun e => s.loadedSymbol p places e.1 e.2),
            required := p.required, routines := routines.map (fun e => (e.1, e.2.getD 0)), sections := spots, refs := 1,
            retiring := false }
        let s := s.writeSections b p places
        let s := { s with objects := s.objects ++ [o],
                          routines := p.features.map (fun e => (e.1, handle, (s.routineOf p e.2).getD 0)) ++ s.routines }
        (.ok, handle, s)

/-! ## The packets (R127, R400, R407, R420) -/

/-- The lines in the page in hand-over that a LOAD reads: of its object, and of the tables of its result. -/
def State.loadLines (s : State) (q : Nat) (obj size result : Dword) : List Nat :=
  s.queueLines q obj.toNat size.toNat true ++ s.queueLines q result.toNat 8 false

/-- A LOAD's object is read, loaded, and its handle and status written; the status, or the fault of an address (R400). -/
def State.loadPacket (s : State) (q : Nat) (obj size result : Dword) : Except HostFault (LoadStatus × Word) × State :=
  let far := s.loadLines q obj size result
  match State.queueRead (pagesOf size.toNat) s q obj.toNat size.toNat with
  | (.error f, s) => (.error f, s.useFar far)
  | (.ok b, s) =>
    match s.queueTranslate q result.toNat true, s.queueTranslate q (result.toNat + 7) true with
    | (.ok _, _), (.ok _, _) =>
      let r := s.loadObject obj b
      (match State.queueWrite 2 r.2.2 q result.toNat (bytesOfNat 4 r.2.1.toNat ++ bytesOfNat 4 r.1.code) with
       | (.ok _, s) => (.ok (r.1, r.2.1), s.useFar far)
       | (.error f, s) => (.error f, s.useFar far))
    | (.error f, _), _ => (.error f, s.useFar far)
    | _, (.error f, _) => (.error f, s.useFar far)

/-- What a LOAD waits for: what it reads of a page in hand-over (R338), and the recall of a counter where its result goes (R363). -/
def State.loadWaits (s : State) (q : Nat) (obj size result : Dword) : Option State :=
  let far := s.loadLines q obj size result
  let lines := ([result.toNat, result.toNat + 7].filterMap (fun a => match s.walk (s.queue q).root.toNat a with
    | .leaf _ entry level => some ((entry / 2 ^ 16 % 2 ^ 36 * 65536 + a % 2 ^ pageBits level) / 128)
    | _ => none)).filter s.slabsOut
  if !s.linesHere far then some (s.askFar far)
  else if lines != [] then some (lines.foldl (fun s l => s.recallFor l 0) s)
  else none

/-- LOAD (R127, R407, R411). -/
def execLoad (obj size result : Dword) (s : State) : Host.Outcome State Fault Refusal :=
  let q := s.cur.queue
  done (
    match s.loadWaits q obj size result with
    | some s => s.dueOnce (.packet q)
    | none =>
    match s.loadPacket q obj size result with
    | (.error f, s) => s.failAddress q f
    | (.ok (st, _), s) =>
      if st = .ok then s.completePacket q .ok { evtype := 2 } false
      else s.completePacket q .load { evtype := 2, vala := BitVec.ofNat 32 st.code } false)

/-- LOAD with PLACE (R407): the object's images are delivered to every cluster of RECT, in image order. A packet whose deliveries have
begun waits for their end. -/
def execLoadPlace (rect : Half) (obj size result : Dword) (s : State) : Host.Outcome State Fault Refusal :=
  let q := s.cur.queue
  let k := Rect.ofHalf rect
  done (
    if s.jobs.any (fun j => j.queue == some q) then s.dueOnce (.event .dispatchSelect {})
    else if !k.legal then s.completePacket q .rect { evtype := 2 } false
    else match s.loadWaits q obj size result with
    | some s => s.dueOnce (.packet q)
    | none => match s.loadPacket q obj size result with
      | (.error f, s) => s.failAddress q f
      | (.ok (st, h), s) =>
        if st ≠ .ok then s.completePacket q .load { evtype := 2, vala := BitVec.ofNat 32 st.code } false
        else
          let f := s.fresh
          let j : Job := { id := f.1, queue := some q, handle := h, clusters := k.clusters, image := 0, tag := 0, begun := false,
                           launch := none, waiting := [], failed := none }
          ({ f.2 with jobs := f.2.jobs ++ [j] }).dueOnce (.event .dispatchSelect {}))

/-- Speculations of an object that would retire are discarded, and no other starts for their queues until the next LAUNCH (R385,
R395). -/
def State.discardObject (s : State) (h : Word) : State :=
  s.launches.foldl (fun s l => if l.spec && l.object == h then s.discardSpec l.queue true else s) s

/-- UNLOAD (R420): one reference goes; at zero the object is freed, or retires while a launch still holds it. -/
def execUnload (handle : Word) (s : State) : Host.Outcome State Fault Refusal :=
  let q := s.cur.queue
  done (
    match s.object? handle with
    | none => s.completePacket q .handle { evtype := 2 } false
    | some o =>
      if handle = 0 ∨ o.retiring then s.completePacket q .handle { evtype := 2 } false
      else
        let last := decide (o.refs ≤ 1)
        let s := if last then s.discardObject handle else s
        let s := { s with objects := s.objects.map (fun (k : Obj) =>
          if k.handle = handle then { k with refs := k.refs - 1, retiring := last } else k) }
        s.freeObjects.completePacket q .ok { evtype := 2 } false)

end Sys2Proof.Machine
end

