-- ==== Sys2Proof/Machine/Ferry.lean ====
section
/-! DEFINITION. The Ferry (R379 to R397): the succession table, the match test, the claim, and the discards that an event brings. -/

namespace Sys2Proof.Machine

open Sys2Proof

/-! ## The succession table (R380 to R382) -/

/-- The match class of an argument word (R381). -/
def matchClass (classes : Word) (n : Nat) : Nat := (classes.extractLsb' (2 * n) 2).toNat

/-- The argument words that are part of a key: those of class exact (R380). -/
def keyArgs (classes : Word) (args : List Word) : List (Option Word) :=
  (List.range 16).map (fun n => if matchClass classes n = 0 then some (args.getD n 0) else none)

/-- Whether an entry has the key of a launch (R380). -/
def Succ.keyOf (e : Succ) (l : Launch) : Bool :=
  e.keyHandle == l.handle && e.keyRect == l.rect && e.keyArgs == Machine.keyArgs l.classes l.args

/-- The argument words that an entry predicts (R381). -/
def Succ.predicted (e : Succ) : List Word :=
  (List.range 16).map (fun n =>
    if matchClass e.classes n = 2 then e.args.getD n 0 + e.delta.getD n 0 else e.args.getD n 0)

/-- The match test (R392): handle, rectangle, bindings, match-class word and speculation-allowed, and every word of class exact or
predicted-delta. `skip` leaves the predicted-delta words out (R382). -/
def launchMatches (handle : Word) (rect : Rect) (binds : List Dword) (classes : Word) (args : List Word) (skip : Bool)
    (l : Launch) : Bool :=
  handle == l.handle && rect == l.rect && binds == l.binds && classes == l.classes && l.mayspec
    && (List.range 16).all (fun n =>
      let k := matchClass classes n
      k == 1 || (k == 2 && skip) || args.getD n 0 == l.args.getD n 0)

/-- An entry after a launch that it predicted has begun (R382). -/
def Succ.update (e : Succ) (l : Launch) (used : Nat) : Succ :=
  let pass := launchMatches e.handle e.rect e.binds e.classes e.predicted e.unlearned l
  { e with handle := l.handle, rect := l.rect, binds := l.binds, args := l.args, classes := l.classes, mayspec := l.mayspec,
           delta := (List.range 16).map (fun n => l.args.getD n 0 - e.args.getD n 0),
           confidence := if pass then min 3 (e.confidence + 1) else 0, unlearned := false, used := used }

/-- A new entry (R380, R382). -/
def newSucc (prev l : Launch) (used : Nat) : Succ :=
  { keyHandle := prev.handle, keyRect := prev.rect, keyArgs := Machine.keyArgs prev.classes prev.args, handle := l.handle,
    rect := l.rect, binds := l.binds, args := l.args, classes := l.classes, mayspec := l.mayspec,
    delta := List.replicate 16 0, confidence := 0, unlearned := true, used := used }

/-- A table with one more entry: the least recently used of 64 goes (R380). -/
def addSucc (t : List Succ) (e : Succ) : List Succ :=
  if t.length < 64 then t ++ [e]
  else match t with
    | [] => [e]
    | x :: rest =>
      let old := rest.foldl (fun m y => if y.used < m.used then y else m) x
      t.erase old ++ [e]

/-- A LAUNCH begins: the entry of the queue's previous LAUNCH is written or updated, the launch is the queue's last, and speculation
may start again (R380, R382, R385). -/
def State.learn (s : State) (q : Nat) (l : Launch) : State :=
  let f := s.fresh
  f.2.updFerry q (fun k =>
    let table := match k.last with
      | none => k.table
      | some p =>
        if k.table.any (fun e => e.keyOf p) then k.table.map (fun e => if e.keyOf p then e.update l f.1 else e)
        else addSucc k.table (newSucc p l f.1)
    { k with table := table, last := some l, stopped := false, hintStopped := false })

/-! ## Claim (R391 to R394) -/

/-- The speculation of a queue with its launch. -/
def State.specLaunch (s : State) (q : Nat) : Option (Speculation × Launch) :=
  ((s.ferryOf q).spec).bind (fun x => (s.launches.find? (fun l => l.id == x.launch)).map (fun l => (x, l)))

/-- Whether the speculation of a queue matches a launch that would begin (R392). -/
def State.claims (s : State) (q : Nat) (l : Launch) : Bool :=
  match s.specLaunch q with
  | some (_, p) => launchMatches p.handle p.rect p.binds p.classes p.args false l
  | none => false

/-- A Landing line is published (R393). No line of a page in hand-over stands in the Landing: the speculation would have been discarded when
the page went (log 114). -/
def State.publishLine (s : State) (q : Nat) (line : Nat) (l : LandLine) : State :=
  let s := (List.range 128).foldl (fun s i =>
    if l.mask.getLsbD i then s.putPhys (line * 128 + i) (wideByte l.data i) else s) s
  s.noticeWrite line (some q)

/-- D is set in a leaf of a page written, where it still is a leaf (R390, R393). -/
def State.publishDirty (s : State) (q entry : Nat) : State :=
  let now := s.readPhysNat entry 8
  if now % 4 = 3 then s.writePhysBy entry (bytesOfNat 8 (now ||| 0x80)) (some q) else s

/-- Held and paused requests of a context walk again (R388, R389, R393). -/
def State.freeHeld (s : State) (k : Ctx) : State :=
  let mine := fun (q : MemReq) =>
    ofCtx k.ctx q.tag && k.rect.contains q.cluster && (match q.stage with | .held _ | .paused => true | _ => false)
  let ids := (s.reqs.filter mine).map (fun q => q.id)
  let s := ids.foldl (fun s id => (s.updReq id (fun q => { q with stage := .issued })).dueEvent .pageWalk { id := id }) s
  k.rect.clusters.foldl (fun s c => (s.region c).mos.foldl (fun s e =>
    match e.2.run with
    | some run => if ofCtx k.ctx run.token.tag then s.beginAgain c e.1 else s
    | none => s) s) s

/-- What a claim waits for: the recall of the counters among the lines that it publishes (R363), and the discard that a write of another
agent to a line that the speculation has read brings at once (R386, R394). -/
def State.claimWaits (s : State) (q : Nat) : Option State :=
  match (s.ferryOf q).spec with
  | none => none
  | some x =>
    let lines := (x.landing.map (fun e => e.1)).filter s.slabsOut
    if lines != [] then some (lines.foldl (fun s l => s.recallFor l 0) s)
    else if s.agenda.any (fun a => match a with
        | .event .readSetConflict c => c.queue != q && x.reads.contains c.index
        | _ => false) then some s
    else none

/-- The claim (R393): every Landing line is published at one instant, register copies go, the watch ends, held operations proceed, and
the context runs on as that of an ordinary launch, with the values it ran with. -/
def State.claim (s : State) (q : Nat) (l : Launch) : State :=
  match s.specLaunch q with
  | none => s
  | some (x, p) =>
    let s := s.updFerry q (fun f => { f with spec := none })
    let s := x.landing.foldl (fun s e => s.publishLine q e.1 e.2) s
    let s := x.dirty.foldl (fun s e => s.publishDirty q e) s
    let s := x.words.foldl (fun s e => s.dueEvent .channelArrival { index := e.1, amount := some e.2 }) s
    let s := s.updLaunch p.id (fun p =>
      { p with spec := false, claimed := true, pseq := l.pseq, prio := l.prio, notify := l.notify, began := s.refCount })
    let mine := s.contexts.filter (fun k => k.launch == p.id)
    let s := mine.foldl (fun s k => s.updCtx k.id (fun k => { k with spec := false })) s
    let s := mine.foldl State.freeHeld s
    let s := p.rect.clusters.foldl (fun s c => s.kickRegisters c) s
    if mine = [] then s.settleLaunch p.id else s

/-! ## Discards (R386, R395) -/

/-- READ_SET_CONFLICT (R386): a write of another agent to a line that a speculation has read discards it at once. -/
def execReadSetConflict (s : State) : Host.Outcome State Fault Refusal :=
  let x := s.cur
  done (s.ferry.foldl (fun s e =>
    match e.2.spec with
    | some p => if e.1 ≠ x.queue ∧ p.reads.contains x.index then s.discardSpec e.1 false else s
    | none => s) s)

/-- SPECULATION_TIMEOUT (R395): 100,000 reference counts after its counts reached zero a speculation without a claim is discarded, and no
other starts for its queue until the next LAUNCH (R385). -/
def execSpeculationTimeout (s : State) : Host.Outcome State Fault Refusal :=
  let x := s.cur
  done (
    match (s.ferryOf x.queue).spec with
    | some p =>
      (match p.idle with
       | some t =>
         if p.launch ≠ x.id then s
         else if t + 100000 ≤ s.refCount then s.discardSpec x.queue true
         else s.dueOnce (.event .speculationTimeout x)
       | none => s)
    | none => s)

end Sys2Proof.Machine
end

