-- ==== Sys2Proof/Machine/Freeze.lean ====
section
/-! DEFINITION. Freeze, drain and resume (R375, R421 to R425, R427): the closure, the halt, the save and its areas, the drain, and what a
resume checks, restores and wakes. -/

namespace Sys2Proof.Machine

open Sys2Proof

/-! ## The closure and the halt (R421) -/

/-- A set of clusters enlarged by the rectangle of every live context that meets it. The fuel is the number of clusters that can be
added. -/
def State.growClosure : Nat → State → List Nat → List Nat
  | 0, _, cs => cs
  | n + 1, s, cs =>
    State.growClosure n s ((List.range 64).filter (fun c =>
      cs.contains c || s.contexts.any (fun k => !k.saved && k.rect.contains c && cs.any k.rect.contains)))

/-- The closure of a set of clusters (R421). -/
def State.closureOf (s : State) (cs : List Nat) : List Nat := s.growClosure 64 cs

/-- Whether a freeze or drain of some clusters has not finished. -/
def State.inFreeze (s : State) (cs : List Nat) : Bool := s.freezes.any (fun f => !f.saved && f.clusters.any cs.contains)

/-- The MMA that an MO runs is abandoned: Z is restored and full, the token stands at the head of the queue again, and what was read of
a streamed operand goes (R306, R421). -/
def State.restoreMma (s : State) (c m : Nat) : State :=
  match (s.mo c m).run with
  | none => s
  | some run =>
    let s := (s.putOff c m none).updMo c m (fun o => { queue := run.token :: o.queue, run := none })
    s.updRegion c (fun r =>
      { r with inUse := r.inUse.set (moPort m * 8) (r.inUse.getD (moPort m * 8) 0 + 1)
               regOps := (r.regOps.filter (fun o => o.id == run.opId || o.act != .mma m)).map (fun o =>
                 if o.id = run.opId then { o with begun := false, writes := [run.z] } else o) })

/-- Whether an activity is the completion of an MMA of a cluster. -/
def Activity.isMmaEnd (a : Activity) (c : Nat) : Bool :=
  match a with
  | .event .mmaComplete x => x.cluster == c
  | _ => false

/-- A freeze reaches a cluster: nothing starts there any more, and every MO has restored its Z (R421). -/
def State.haltCluster (s : State) (c : Nat) : State :=
  let s := s.updRegion c (fun r => { r with halted := true, draining := false })
  let s := (s.region c).mos.foldl (fun s e => s.restoreMma c e.1) s
  { s with agenda := s.agenda.filter (fun a => !a.isMmaEnd c) }

/-- The save areas of a LIST, by cluster: entry c is that of cluster c (R400). -/
def State.listAreas (s : State) (list : Nat) (cs : List Nat) : List (Nat × Nat) :=
  cs.map (fun c => (c, s.readPhysNat (list + 8 * c) 8))

/-- The lines of a LIST. -/
def listLines (list : Dword) : List Nat := linesOf list.toNat 512

/-- The lines in the page in hand-over of some save areas, which are read where they stand (R338). -/
def State.areaLines (s : State) (areas : List (Nat × Nat)) : List Nat :=
  match s.lentPage with
  | some p =>
    if areas.any (fun e => decide (e.2 / 65536 ≤ p) && decide (p < e.2 / 65536 + 128)) then linesOf (p * 65536) 65536 else []
  | none => []

/-- A freeze of a closure begins (R421): its speculations are discarded, the counts of its watchdogs stop (R409), its clusters
halt, and the save is to follow. -/
def State.startFreeze (s : State) (f : Freeze) : State :=
  let s := s.discardOn f.clusters
  let mine := s.contexts.filter (fun k => !k.saved && f.clusters.any k.rect.contains)
  let s := mine.foldl (fun s k => match s.launchOf k with | some l => s.settleClock l | none => s) s
  let s := f.clusters.foldl State.haltCluster s
  { s with freezes := s.freezes ++ [f] }.dueEvent .freezeSave { id := f.id }

/-- A packet begins its action (R419). -/
def State.beginPacket (s : State) (q : Nat) : State :=
  s.updQueue q (fun k => { k with current := k.current.map (fun p => { p with stopped := true }) })

/-- The command of a queue looks again later. -/
def State.again (s : State) (q : Nat) : State := s.dueOnce (.packet q)

/-- FREEZE and DRAIN of a packet: an illegal RECT completes with RECT; an earlier freeze that has not finished comes first. -/
def State.freezePacket (s : State) (rect : Half) (list : Dword) (drain : Option Word) : State :=
  let q := s.cur.queue
  let r := Rect.ofHalf rect
  if ((s.queue q).current.map (fun k => k.stopped)).getD false then s
  else if !r.legal then s.completePacket q .rect { evtype := 2 } false
  else
    let cs := s.closureOf r.clusters
    if s.inFreeze cs then s.again q
    else if !s.linesHere (listLines list) then (s.askFar (listLines list)).again q
    else
      let n := s.fresh
      let f : Freeze := { id := n.1, queue := some q, clusters := cs, areas := s.listAreas list.toNat cs, ring := false,
                          drain := drain.isSome, start := s.refCount, dtime := (drain.getD 0).toNat, saved := false,
                          stuck := false }
      let s := (n.2.useFar (listLines list)).beginPacket q
      if drain.isSome then
        let s := s.discardOn cs
        let s := cs.foldl (fun s c => s.updRegion c (fun r => { r with draining := true })) s
        ({ s with freezes := s.freezes ++ [f] }.dueEvent .drainSweepComplete { id := f.id }).dueEvent .drainTimeout { id := f.id }
      else s.startFreeze f

/-- FREEZE (R421). -/
def execFreeze (rect : Half) (list : Dword) (s : State) : Host.Outcome State Fault Refusal :=
  done (s.freezePacket rect list none)

/-- DRAIN (R423): no seed is injected and no record is taken in the closure. -/
def execDrainPacket (rect : Half) (list : Dword) (dtime : Word) (s : State) : Host.Outcome State Fault Refusal :=
  done (s.freezePacket rect list (some dtime))

/-! ## When the save may begin (R375, R422) -/

/-- The queued QTAKEW and PWAIT requests of a closure are withdrawn (R375); their lines go on. -/
def State.withdraw (s : State) (cs : List Nat) : State :=
  let mine := fun (id : Nat) => ((s.req? id).map (fun q => cs.contains q.cluster)).getD false
  let lines := (s.quarry.filter (fun e => e.2.waiters.any (fun w => mine w.1))).map (fun e => e.1)
  let ids := (s.pwaits.filter (fun p => mine p.2.1)).map (fun p => p.2.1)
    ++ (s.quarry.map (fun e => (e.2.waiters.filter (fun w => mine w.1)).map (fun w => w.1))).flatten
  let s := { s with
    pwaits := s.pwaits.filter (fun p => !ids.contains p.2.1)
    quarry := s.quarry.map (fun (e : Nat × QuarryHome) =>
      (e.1, { e.2 with waiters := e.2.waiters.filter (fun w => !ids.contains w.1) }))
    reqs := s.reqs.map (fun (q : MemReq) => if ids.contains q.id then { q with stage := .withdrawn } else q) }
  lines.foldl (fun s l => (s.settleLine l).dueEvent .quarryHomeRequest { index := l }) s

/-- Whether the save need not wait for a request: it is in the store buffer, held at its port or withdrawn, or it waits behind one that
is (R421, R422). -/
def State.settled (s : State) (q : MemReq) : Bool :=
  match q.stage with
  | .buffered | .held _ | .paused | .withdrawn => true
  | .issued => !s.mayPerform q
  | .performed => !s.inReplyOrder q
  | .away => false

/-- Whether a token that arrives at a stub stays in its queue for want of a credit of the queue of the instruction's new station (R36, R55). -/
def State.stubHeld (s : State) (x : Site) : Bool :=
  match (s.region x.cluster).stubs.get? x.token.station with
  | some n =>
    let key := s.queueKey x.cluster n x.token.port
    key != x.index && !s.hasCredit x.cluster key
  | none => false

/-- Whether an activity of a closure has still to land before its save: what is in a link, and completions (R421, R422). -/
def State.landing (s : State) (cs : List Nat) (a : Activity) : Bool :=
  match a with
  | .event .tokenArrival x =>
    cs.contains x.cluster && !(s.region x.cluster).stalled.contains (elementOf x.token.station) && !s.stubHeld x
  | .event .joinPartArrival x => x.id != 0 && cs.contains x.part.dst
  | .event .wsbArrival x => ((s.req? x.id).map (fun q => cs.contains q.cluster)).getD false
  | .event .creditReturn x | .event .exportSend x | .event .exportArrival x | .event .exportAck x
  | .event .deadlockProbeArrival x | .event .mmapPartnerArrival x | .event .tileWriteComplete x
  | .event .copyComplete x | .event .copyFault x | .event .moStreamFault x => cs.contains x.cluster
  | _ => false

/-- Whether a closure can be saved: nothing of its contexts is on its way, no stream is in delivery to it, and discarded contexts are gone
(R421, R422). -/
def State.canSave (s : State) (cs : List Nat) : Bool :=
  !s.contexts.any (fun k => k.killed && !k.saved && cs.any k.rect.contains)
    && s.reqs.all (fun q => !cs.contains q.cluster || s.settled q)
    && !s.agenda.any (s.landing cs)
    && !s.spanOut.any (fun o => cs.contains o.cluster) && !s.jobs.any (fun j => j.begun && j.clusters.any cs.contains)

/-! ## The save (R422, R427) -/

/-- The bytes of a save area as they stand (R422: 8 MiB), in memory, in the vaults, or at the new home of a page in hand-over. -/
def State.areaNow (s : State) (area : Nat) : Bytes :=
  let here := s.mem.filter (fun e => decide (area ≤ e.1) && decide (e.1 < area + 0x800000))
  let far := s.farLines.filter (fun e => decide (area ≤ e.1 * 128) && decide (e.1 * 128 < area + 0x800000))
  far.foldl (fun m e => Bytes.putRange m (e.1 * 128) (wideBytes e.2)) <|
  s.regions.foldl (fun m e => e.2.vault.foldl (fun m v =>
    if area / 65536 ≤ v.2.page ∧ v.2.page < area / 65536 + 128 then moveBytes e.2.vaultBytes (v.1 * 65536) 65536 m (v.2.page * 65536)
    else m) m) here

/-- What a save writes into an area (R422). -/
def State.writeArea (s : State) (area : Nat) : State :=
  ((Config.saveImage s.ticks).filter (fun e => decide (e.1 < 0x800000))).foldl (fun s e => s.writePhys (area + e.1) [e.2]) s

/-- The bindings of a region that are saved with some contexts, and those that stay: in flag mode, of contexts that have ended (R263, R422). -/
def Region.boundBy (r : Region) (ids : List Nat) (mine : Bool) : Table Binding := r.bindings.filter (fun e => ids.contains e.2.ctx == mine)

/-- A region after its save: free of its contexts' state; its registers are full (R422). -/
def Region.cleared (r : Region) (ids : List Nat) : Region :=
  { r with inUse := [], store := [], asked := [], stalled := [], blocked := [], waits := [], waves := [], buffer := [],
           counts := [], answers := [], exitv := [], bases := [], brkHeld := [], regOps := [], mos := [], slots := [], expansions := [],
           groups := [], rounds := [], templates := [], bindings := r.boundBy ids false, pins := [], halted := false, draining := false,
           tiles := r.tiles.map (fun (e : Nat × Tile) => (e.1, { e.2 with full := true })),
           accs := r.accs.map (fun (e : Nat × Acc) => (e.1, { e.2 with full := true })) }

/-- The tokens that wait at stalled elements and stubs of a cluster, with the station where their instruction stands. -/
def State.stalledTokens (s : State) (c : Nat) : List Token :=
  s.agenda.filterMap (fun a => match a with
    | .event .tokenArrival x => if x.cluster = c then some { x.token with station := s.placeNow c x.token.station } else none
    | _ => none)

/-- Whether an activity is a token's arrival in a cluster. -/
def Activity.isArrival (a : Activity) (c : Nat) : Bool :=
  match a with
  | .event .tokenArrival x => x.cluster == c
  | _ => false

/-- A cluster writes its region into its area, and its region is clear (R422). -/
def State.saveRegion (s : State) (ring : Bool) (ids : List Nat) (c area : Nat) : State :=
  let s := s.writeArea area
  let mine := s.contexts.filter (fun k => ids.contains k.id && k.rect.contains c)
  let v : Saved := { cluster := c, ctxs := mine.map (fun k => k.id), region := { s.region c with bindings := (s.region c).boundBy ids true },
                     reqs := s.reqs.filter (fun q => q.cluster == c), due := s.stalledTokens c, image := s.areaNow area,
                     ring := ring, full := true }
  { s with saves := s.saves.set area v, reqs := s.reqs.filter (fun q => q.cluster != c),
           agenda := s.agenda.filter (fun a => !a.isArrival c) }.updRegion c (fun r => r.cleared ids)

/-- A freeze or drain has finished (R422, R423, R426): its packet completes, or its closure waits to be resumed. -/
def State.endFreeze (s : State) (f : Freeze) : State :=
  match f.queue with
  | some q => { s with freezes := s.freezes.filter (fun g => g.id != f.id) }.completePacket q .ok { evtype := 2 } false
  | none =>
    ({ s with freezes := s.freezes.map (fun (g : Freeze) => if g.id = f.id then { g with saved := true } else g) }.dueEvent .preemptResume
      { id := f.id }).dueOnce (.event .dispatchSelect {})

/-- Every cluster of a closure is saved, migrated instructions at their homes (R99, R422). -/
def State.saveClosure (s : State) (f : Freeze) : State :=
  let mine := s.contexts.filter (fun k => !k.saved && f.clusters.any k.rect.contains)
  let s := mine.foldl (fun s k => match s.launchOf k with | some l => s.settleClock l | none => s) s
  let s := mine.foldl (fun s k => s.updCtx k.id (fun k => { k with saved := true })) s
  let s := mine.foldl (fun s k => k.rect.clusters.foldl (fun s c => s.returnHome c k.cfg) s) s
  let far := s.areaLines f.areas
  let s := f.areas.foldl (fun s e => s.saveRegion f.ring (mine.map (fun k => k.id)) e.1 e.2) s
  (s.useFar far).settlePins.endFreeze f

/-- FREEZE_SAVE (R422): once every reply of the closure's contexts has landed, each cluster writes its area; what stands beside it in a page in
hand-over comes from the page's new home first (R338). -/
def execFreezeSave (s : State) : Host.Outcome State Fault Refusal :=
  let x := s.cur
  done (
    match s.freezes.find? (fun f => f.id == x.id) with
    | none => s
    | some f =>
      let s := s.withdraw f.clusters
      let far := s.areaLines f.areas
      if !s.canSave f.clusters then s.dueEvent .freezeSave x
      else if !s.linesHere far then (s.askFar far).dueEvent .freezeSave x
      else s.saveClosure f)

/-! ## Drain (R423) -/

/-- The registers of a cluster alone are saved. -/
def State.saveRegisters (s : State) (c area : Nat) : State :=
  let s := s.writeArea area
  let r := s.region c
  let v : Saved := { cluster := c, ctxs := [], region := { Region.reset with tiles := r.tiles, accs := r.accs, lfsr := r.lfsr },
                     reqs := [], due := [], image := s.areaNow area, ring := false, full := false }
  { s with saves := s.saves.set area v }.updRegion c (fun r => { r with draining := false })

/-- DRAIN_SWEEP_COMPLETE (R423): once every context of the closure has completed, each cluster saves its registers. -/
def execDrainSweepComplete (s : State) : Host.Outcome State Fault Refusal :=
  let x := s.cur
  done (
    match s.freezes.find? (fun f => f.id == x.id && f.drain) with
    | none => s
    | some f =>
      let far := s.areaLines f.areas
      if !f.clusters.all (fun c => (s.ctxsOf c).isEmpty) then s.dueEvent .drainSweepComplete x
      else if !s.linesHere far then (s.askFar far).dueEvent .drainSweepComplete x
      else ((f.areas.foldl (fun s e => s.saveRegisters e.1 e.2) s).useFar far).endFreeze f)

/-- DRAIN_TIMEOUT (R423): DTIME units have passed first, and the drain goes on as a freeze of its closure. -/
def execDrainTimeout (s : State) : Host.Outcome State Fault Refusal :=
  let x := s.cur
  done (
    match s.freezes.find? (fun f => f.id == x.id && f.drain) with
    | none => s
    | some f =>
      if s.refCount < f.start + f.dtime * 1024 then s.dueEvent .drainTimeout x
      else { s with freezes := s.freezes.filter (fun g => g.id != f.id) }.startFreeze { f with drain := false })

/-! ## Save areas of the ring, and the discard of a saved context (R419, R425, R427) -/

/-- A ring area is returned: EVTYPE 7 in q0's ring (R427). -/
def State.returnArea (s : State) (v : Saved) (area : Nat) : State :=
  if v.ring then s.post 0 { evtype := 7, cluster := v.cluster, va := area } else s

/-- Closures frozen by R426 whose areas are all returned are forgotten. -/
def State.dropFreezes (s : State) : State :=
  { s with freezes := s.freezes.filter (fun f => !(f.saved && f.areas.all (fun e => (s.saves.get? e.2).isNone))) }

/-- A region without the replies of a context that are on their way (R61). -/
def Region.unanswered (r : Region) (x : BitVec 8) : Region := { r with answers := r.answers.filter (fun e => !ofCtx x e.2.1) }

/-- The flag-mode bindings of a saved context that is dropped stand in their region again: they outlive it (R263). -/
def State.keepFlags (s : State) (v : Saved) (k : Ctx) : State :=
  let flags := v.region.bindings.filter (fun e => e.2.flag && e.2.ctx == k.id)
  flags.foldl (fun s e => s.dueOnce (.event .channelArrival { index := e.2.channel.toNat }))
    (s.updRegion v.cluster (fun r => { r with bindings := flags.foldl (fun t e => t.set e.1 e.2) r.bindings }))

/-- A saved context is dropped from every area; an area that holds no other is given up (R419, R425, R427). -/
def State.dropSaved (s : State) (k : Ctx) : State :=
  let s := s.saves.foldl (fun s e =>
    if e.2.ctxs.contains k.id then
      let s := s.keepFlags e.2 k
      let v : Saved :=
        { e.2 with ctxs := e.2.ctxs.filter (fun i => i != k.id), region := (e.2.region.purge k.ctx k.id true []).unanswered k.ctx,
                   reqs := e.2.reqs.filter (fun q => !ofCtx k.ctx q.tag),
                   due := e.2.due.filter (fun t => !ofCtx k.ctx t.tag) }
      if v.ctxs = [] then { s with saves := s.saves.erase e.1 }.returnArea v e.1 else { s with saves := s.saves.set e.1 v }
    else s) s
  { s with contexts := s.contexts.filter (fun n => n.id != k.id) }.dropFreezes

/-! ## Resume (R424) -/

/-- The areas that a resume names with what they hold. -/
def State.namedSaves (s : State) (areas : List (Nat × Nat)) : List (Nat × Saved) :=
  areas.filterMap (fun e => (s.saves.get? e.2).map (fun v => (e.2, v)))

/-- The saved contexts that a resume names. -/
def State.namedCtxs (s : State) (areas : List (Nat × Nat)) : List Ctx :=
  let ids := ((s.namedSaves areas).map (fun e => e.2.ctxs)).flatten
  s.contexts.filter (fun k => k.saved && ids.contains k.id)

/-- The image of a saved context's configuration, with its object and its place (R424). -/
def State.savedImage (s : State) (k : Ctx) : Option (Obj × Nat × Image) :=
  ((s.launchOf k).bind (fun l => s.object? l.object)).bind (fun o =>
    ((o.images.zip (List.range o.images.length)).find? (fun e => e.1.tag == k.cfg)).map (fun e => (o, e.2, e.1)))

/-- Whether the clusters that a resume names can take its contexts: their CTX values are free, there is room, and their configurations are
resident and swept or can be placed (R98, R424). -/
def State.canResume (s : State) (areas : List (Nat × Nat)) : Bool :=
  let cs := areas.map (fun e => e.1)
  !cs.any s.frozen && cs.all (fun c => (s.region c).swept)
    && (s.namedCtxs areas).all (fun k => (k.rect.clusters.filter cs.contains).all (fun c =>
      (s.ctxAt c k.ctx).isNone && decide ((s.ctxsOf c).length < 32)
        && (s.residentIn c k.cfg || (match s.savedImage k with
          | some i => s.deliverable c k.cfg (streamAddrs i.2.2.words)
          | none => true))))

/-- The outcome of the checks of R424: 2 for a mismatch, 3 for an incomplete LIST, 0 where all is well. -/
def State.resumeCode (s : State) (areas : List (Nat × Nat)) : Nat :=
  let good := fun (e : Nat × Nat) => match s.saves.get? e.2 with
    | some v => v.cluster == e.1 && v.image == s.areaNow e.2
    | none => false
  if !areas.all good then 2
  else if !(s.namedCtxs areas).all (fun k => k.rect.clusters.all (fun c => areas.any (fun e => e.1 == c))) then 3
  else 0

/-- The clusters of a saved context that its configuration has left. -/
def State.evictedFrom (s : State) (k : Ctx) : List Nat := k.rect.clusters.filter (fun c => !s.residentIn c k.cfg)

/-- The evicted configurations of the contexts named are delivered again (R424). -/
def State.reload (s : State) (ks : List Ctx) : State :=
  ks.foldl (fun s k =>
    match s.savedImage k with
    | some (o, n, i) =>
      let cs := s.evictedFrom k
      if cs = [] || s.jobs.any (fun j => j.tag == i.tag && j.clusters.any cs.contains) then s
      else
        let f := s.fresh
        let j : Job := { id := f.1, queue := none, handle := o.handle, clusters := cs, image := n, tag := i.tag, begun := false,
                         launch := none, waiting := [], failed := none }
        { f.2 with jobs := f.2.jobs ++ [j] }.beginJob j
    | none => s) s

/-- Tables and lists of a saved region joined to those of a region. -/
def overlay {α : Type} (t u : Table α) : Table α := u.foldl (fun t e => t.set e.1 e.2) t

/-- A matrix operator's saved queue stands before what has come to it since (R306). -/
def joinMos (t u : Table Mo) : Table Mo :=
  u.foldl (fun t e => t.set e.1 { t.getD e.1 {} with queue := e.2.queue ++ (t.getD e.1 {}).queue }) t

/-- Queue entries in use again. -/
def addUse (t : Table Nat) (keys : List Nat) : Table Nat := keys.foldl (fun t k => t.set k (t.getD k 0 + 1)) t

/-- A saved entry joins a store: spilled where the store of its element is full (R39, R424). -/
def putBack (store : List MatchEntry) (e : MatchEntry) : List MatchEntry :=
  let element := e.left.getD (elementOf e.station)
  store ++ [if e.inStore element && decide (storeSize element ≤ (store.filter (fun m => m.inStore element)).length) then { e with spilled := true }
            else e]

/-- A region with a saved one restored into it (R422, R424). Pins follow. -/
def Region.restore (r v : Region) (full : Bool) (ctxs : List (BitVec 8)) : Region :=
  let r := { r with tiles := v.tiles, accs := v.accs, lfsr := v.lfsr, asleep := false }
  if !full then r
  else
    { r with inUse := addUse r.inUse ((ctxs.map v.heldKeys).flatten)
             store := v.store.foldl putBack r.store, blocked := r.blocked ++ v.blocked, asked := r.asked ++ v.asked, waves := r.waves ++ v.waves, buffer := r.buffer ++ v.buffer
             counts := overlay r.counts v.counts, answers := r.answers ++ v.answers, exitv := overlay r.exitv v.exitv, bases := overlay r.bases v.bases
             brkHeld := r.brkHeld ++ v.brkHeld, regOps := r.regOps ++ v.regOps, mos := joinMos r.mos v.mos
             slots := overlay r.slots v.slots, expansions := r.expansions ++ v.expansions, groups := overlay r.groups v.groups
             rounds := r.rounds ++ v.rounds, templates := overlay r.templates v.templates
             bindings := overlay v.bindings r.bindings }

/-- An item is pinned again (R323, R424): a line where its set has room, a page where its slot can hold it. None where it cannot. -/
def State.repin (s : State) (c : Nat) (p : Pin) : Option State :=
  if p.page then (s.openNumber (p.item / 512) (p.item % 512) p.backing).map (fun s => s.addPin c p)
  else if 11 ≤ (s.region c).pinnedWays p.item then none
  else some (s.addPin c p)

/-- The pins of a saved region are pinned again in their order; the number that could not be is counted. -/
def State.repinAll (s : State) (c : Nat) (pins : List Pin) : State × Nat :=
  pins.foldl (fun (e : State × Nat) p =>
    match e.1.repin c p with
    | some s => (s, e.2)
    | none => (e.1, e.2 + 1)) (s, 0)

/-- A saved request goes on: issued, withdrawn and performed ones follow their course again (R375, R422). -/
def State.resumeReq (s : State) (q : MemReq) : State :=
  match q.stage with
  | .issued | .withdrawn => { s with reqs := s.reqs ++ [{ q with stage := .issued }] }.retryReq q.id
  | .performed => { s with reqs := s.reqs ++ [q] }.dueEvent .memoryReply { id := q.id }
  | _ => { s with reqs := s.reqs ++ [q] }

/-- What a restored cluster does next: everything that a firing, an engine or a wave waits for is looked at again (R424). -/
def State.reawaken (s : State) (c : Nat) : State :=
  let r := s.region c
  let s := r.store.foldl (fun s e =>
    if e.sticky then s else s.offer c e.station (s.opAt c e.station) (s.recAt c e.station) e.tag) s
  let s := r.ingress.foldl (fun s e => if e.2.isEmpty then s else s.dueOnce (.fire c (0x1910 + e.1) 0)) s
  let s := r.mos.foldl (fun s e => s.nextControl c e.1) s
  let s := r.templates.foldl (fun s e => s.nextTrigger c e.1) s
  let s := r.expansions.foldl (fun s e => s.dueOnce (.event .mseqStep { cluster := c, id := e.id })) s
  let s := r.rounds.foldl (fun s e =>
    s.dueOnce (.event .joinPartArrival { cluster := c, station := e.station, tag := e.tag })) s
  let s := r.bindings.foldl (fun s e => s.dueOnce (.event .channelArrival { index := e.2.channel.toNat })) s
  let s := r.waves.foldl (fun s e => s.dueOnce (.event .waveCloseQuiescence { cluster := c, index := e.block, tag := e.tag })) s
  (s.kickRegisters c).pumpBuffer c

/-- The tokens that wait in a cluster for a credit leave where there is one, and stations wait on for the others (R36, R59). -/
def State.relaunchAll (s : State) (c : Nat) : State :=
  (s.region c).blocked.foldl (fun s b =>
    if s.hasCredit b.2.cluster (s.wantedKey b.1 b.2) then
      ((s.updRegion c (fun r => { r with blocked := r.blocked.erase b })).launchFrom c b.1 b.2).endWait c b.1
    else if isExportPort b.1 then s
    else s.startWait c b.1) s

/-- One area is restored; the items that could not be pinned again are counted (R424). -/
def State.restoreArea (s : State) (ks : List Ctx) (area : Nat) (v : Saved) : State × Nat :=
  let c := v.cluster
  let mine := (ks.filter (fun k => v.ctxs.contains k.id)).map (fun k => k.ctx)
  let s := s.updRegion c (fun r => r.restore v.region v.full mine)
  let s := v.reqs.foldl State.resumeReq s
  let s := v.due.foldl (fun s t =>
    let key := s.queueKey c t.station t.port
    (s.updRegion c (fun r => { r with inUse := addUse r.inUse [key] })).dueEvent .tokenArrival
      { cluster := c, token := t, index := key }) s
  let p := s.repinAll c v.region.pins
  (({ p.1 with saves := p.1.saves.erase area }.returnArea v area).reawaken c, p.2)

/-- The areas of a resume are restored, and their contexts fire again (R409, R424). -/
def State.restoreAll (s : State) (areas : List (Nat × Nat)) : State × Nat :=
  let saves := s.namedSaves areas
  let ks := s.namedCtxs areas
  let s := s.discardOn (areas.map (fun e => e.1))
  let s := ks.foldl (fun s k => match s.launchOf k with | some l => s.settleClock l | none => s) s
  let s := ks.foldl (fun s k => s.updCtx k.id (fun k => { k with saved := false })) s
  let p := saves.foldl (fun (e : State × Nat) v =>
    let p := e.1.restoreArea ks v.1 v.2
    (p.1, e.2 + p.2)) (s, 0)
  let s := saves.foldl (fun s v => s.relaunchAll v.2.cluster) p.1
  let s := ks.foldl (fun s k =>
    let s := if k.trapped then s else s.releaseCtx { k with saved := false }
    s.dueOnce (.event .contextComplete { id := k.id })) s
  (s.dropFreezes, p.2)

/-- What a resume comes to: it waits, or it has ended with a CODE (R424). -/
inductive Resumed where
  | wait (s : State)
  | ended (s : State) (code : Nat)
  deriving DecidableEq, Repr

/-- A resume of some areas (R424): it waits until the clusters can take the contexts, checks, reloads and restores, and posts its
EVTYPE 3 event. -/
def State.resumeAreas (s : State) (q pseq : Nat) (areas : List (Nat × Nat)) : Resumed :=
  let far := s.areaLines areas
  if !s.canResume areas then .wait s
  else if !s.linesHere far then .wait (s.askFar far)
  else
    let code := s.resumeCode areas
    let record := fun (s : State) (unpinned : Nat) =>
      s.post q { evtype := 3, code := code, queue := q, vala := BitVec.ofNat 32 unpinned,
                 valb := BitVec.ofNat 32 areas.length, pseq := pseq }
    let s := s.useFar far
    if code ≠ 0 then .ended (record s 0) code
    else if (s.namedCtxs areas).any (fun k => (s.savedImage k).isSome && s.evictedFrom k != []) then
      .wait (s.reload (s.namedCtxs areas))
    else
      let p := s.restoreAll areas
      .ended (record p.1 p.2) 0

/-- The closures of R426 that a packet's areas meet may be tried again (R425). -/
def State.unstick (s : State) (areas : List Nat) : State :=
  (s.freezes.filter (fun f => f.saved && f.stuck && f.areas.any (fun e => areas.contains e.2))).foldl (fun s f =>
    { s with freezes := s.freezes.map (fun (g : Freeze) => if g.id = f.id then { g with stuck := false } else g) }.dueEvent .preemptResume
      { id := f.id }) s

/-- RESUME (R424, R425): of every cluster whose LIST entry is not zero. A LIST in the page in hand-over is read at its new home (R338). -/
def execResume (list : Dword) (s : State) : Host.Outcome State Fault Refusal :=
  let q := s.cur.queue
  let areas := (s.listAreas list.toNat (List.range 64)).filter (fun e => e.2 != 0)
  let pseq := ((s.queue q).current.map (fun k => k.pseq.toNat)).getD 0
  done (
    if !s.linesHere (listLines list) then (s.askFar (listLines list)).again q
    else match s.resumeAreas q pseq areas with
    | .wait s => s.again q
    | .ended s _ => ((s.useFar (listLines list)).completePacket q .ok { evtype := 2 } false).unstick (areas.map (fun e => e.2)))

/-! ## Pre-emption by the dispatcher (R426) -/

/-- PREEMPT_RESUME (R424 to R427): a closure that R426 has frozen is resumed once its clusters can take it; while a launch of higher
priority waits for them they cannot. After a mismatch it is not tried again until software acts. -/
def State.preemptResume (s : State) (f : Freeze) (x : Site) (wanted : Bool) : State :=
  let areas := f.areas.filter (fun e => (s.saves.get? e.2).isSome)
  if f.stuck then s
  else if wanted then s.dueEvent .preemptResume x
  else match s.resumeAreas 0 0 areas with
    | .wait s => s.dueEvent .preemptResume x
    | .ended s code =>
      if code = 0 then s
      else { s with freezes := s.freezes.map (fun (g : Freeze) => if g.id = f.id then { g with stuck := true } else g) }

/-- The lines of the save-area ring (R398). -/
def State.ringLines (s : State) : List Nat := linesOf s.regs.svbase.toNat 512

/-- The next n areas of the save-area ring (R398). -/
def State.ringAreas (s : State) (n : Nat) : List Nat :=
  (List.range n).map (fun i => s.readPhysNat (s.regs.svbase.toNat + 8 * ((s.regs.svcons.toNat + i) % 64)) 8)

/-- The lowest queue of the launches frozen in a cluster (R427). -/
def State.frozenQueue (s : State) (c : Nat) : Nat :=
  ((s.ctxsOf c).map (fun k => s.queueOf k)).foldl min 64

/-- A closure is frozen by R426: its speculations are discarded, and it takes an area for each cluster from the ring, with an EVTYPE 6 event
each (R421, R427). -/
def State.preempt (s : State) (cs : List Nat) : State :=
  let s := s.discardOn cs
  let areas := cs.zip (s.ringAreas cs.length)
  let n := s.fresh
  let f : Freeze := { id := n.1, queue := none, clusters := cs, areas := areas, ring := true, drain := false, start := s.refCount,
                      dtime := 0, saved := false, stuck := false }
  let s := { n.2 with regs := { n.2.regs with svcons := n.2.regs.svcons + BitVec.ofNat 32 cs.length } }
  let s := areas.foldl (fun s e =>
    s.post 0 { evtype := 6, cluster := e.1, queue := if s.frozenQueue e.1 < 64 then s.frozenQueue e.1 else 0, va := e.2 }) s
  s.startFreeze f

end Sys2Proof.Machine
end

