-- ==== Sys2Proof/Machine/HostNode.lean ====
section
/-! DEFINITION. Host nodes and remote tokens (0xB7 to 0xB9, R265 to R267, R433, R434). -/

namespace Sys2Proof.Machine

open Sys2Proof

/-- The station address of an ingress node (R75). -/
def ingressStation (n : Nat) : Nat := 0x1910 + n

/-- A record enters the queue of its ingress node, and wakes a sleeping cluster (R265, R341). -/
def State.pushIngress (s : State) (e : IngressRec) : State :=
  (s.updRegion e.cluster (fun r =>
    { r with ingress := r.ingress.set e.node (r.ingress.getD e.node [] ++ [e]), asleep := false })).dueOnce
    (.fire e.cluster (ingressStation e.node) 0)

/-- Whether the device register block takes host writes: the device is READY (R445). -/
def State.takesWrites (s : State) : Bool := s.toll.boot == .ready && !s.toll.off

/-- INGRESS_RECORD (R433): the write of its SEAL posts a record; the bytes of the aperture stay. While the node's queue holds 64 records,
flow control holds the write, and the writes behind it. Nothing before READY (R445). -/
def execIngressRecord (cluster node : Nat) (value wtag : Word) (s : State) : Host.Outcome State Fault Refusal :=
  done (
    if !s.takesWrites then s
    else if 64 ≤ ((s.region cluster).ingress.getD node []).length then
      { s with agenda := .write (0x20000 + 16 * (8 * cluster + node)) (bytesOfNat 4 value.toNat ++ bytesOfNat 4 wtag.toNat ++ bytesOfNat 8 0)
                 :: s.agenda }
    else
      { s with ingressAp := s.ingressAp.set (8 * cluster + node) (value.zeroExtend 128 ||| (wtag.zeroExtend 128 <<< 32)) }.pushIngress
        { cluster := cluster, node := node, value := value, wtag := wtag })

/-- XSEND_RECORD_ARRIVAL (R267, R433): a record that another device sent enters the queue of its node, which accepts it; a full queue
holds it. -/
def execXsendRecordArrival (s : State) : Host.Outcome State Fault Refusal :=
  let e := s.cur.ingress
  done (
    if 64 ≤ ((s.region e.cluster).ingress.getD e.node []).length then s.backTo s.cur.index (.event .xsendRecordArrival s.cur)
    else (s.pushIngress e).answer s.cur.id [] 0)

/-- HIN (R89, R265): takes the record at the head of the node's queue, with the token of a port P in use, and sends its value with the
tag in hand unless port P suppresses it. -/
def execHin (r : Rec) (s : State) : Host.Outcome State Fault Refusal :=
  let x := s.cur
  let n := x.station - 0x1910
  let s := s.updRegion x.cluster (fun k => { k with ingress := k.ingress.set n (k.ingress.getD n []).tail })
  let s := s.enterBlock x.cluster r.block.toNat x.tag
  let s := if r.p.act = .consume then s.takeEntry x.cluster (fun e => e.fits x.station .p .consume x.tag) else s
  let s := if x.go then s.send r x.a else s
  done (if ((s.region x.cluster).ingress.getD n []).isEmpty then s else s.dueOnce (.fire x.cluster x.station 0))

/-- The bytes of egress record i (R434). -/
def egressBytes (value tag : Word) (cluster node i size : Nat) : List Byte :=
  bytesOfNat 4 value.toNat ++ bytesOfNat 4 tag.toNat ++ bytesOfNat 1 cluster ++ bytesOfNat 1 node ++ bytesOfNat 5 0
    ++ bytesOfNat 1 (lapSeal i size)

/-- A record goes into the egress ring (R434). -/
def State.putEgress (s : State) (value tag : Word) (cluster node : Nat) : State :=
  let size := 2 ^ (s.regs.egctl.extractLsb' 0 4).toNat
  let i := s.regs.egprod.toNat
  let s := s.writePhys (s.regs.egbase.toNat + 16 * (i % size)) (egressBytes value tag cluster node i size)
  { s with regs := { s.regs with egprod := s.regs.egprod + 1 } }

/-- A record whose entry lies in the page in hand-over is written at the page's new home; EGPROD counts it, and HOUT's token follows, once it is
visible (R266, R338, R434). -/
def State.forwardEgress (s : State) (value tag : Word) (cluster station : Nat) : State :=
  let size := 2 ^ (s.regs.egctl.extractLsb' 0 4).toNat
  let q : MemReq := { id := s.nextId, cluster := cluster, station := station, tag := tag, kind := .flagWrite,
                      va := BitVec.ofNat 64 s.egressAt, size := 16, scope := 4, b := 1,
                      data := egressBytes value tag cluster (station - 0x1918) s.regs.egprod.toNat size, result := [.narrow 0] }
  (s.addReq q).dueEvent .pageWalk { id := q.id }

/-- HOUT (R266): appends its record and sends 0 once it is visible. -/
def execHout (r : Rec) (s : State) : Host.Outcome State Fault Refusal :=
  firing 0xB8 r (fun t =>
    if t.inLentPage t.egressAt then t.forwardEgress s.cur.aw s.cur.tag s.cur.cluster s.cur.station
    else (t.putEgress s.cur.aw s.cur.tag s.cur.cluster (s.cur.station - 0x1918)).sendWord r 0) s

/-- XSEND (R267, R430): BAD_TARGET for reserved bits or an unknown device; otherwise the record leaves over Span and counts as export
traffic until its node accepts it. -/
def execXsend (r : Rec) (s : State) : Host.Outcome State Fault Refusal :=
  firing 0xB9 r (fun t =>
    let x := s.cur
    let d := (x.bw.extractLsb' 0 12).toNat
    if x.bw.extractLsb' 21 11 ≠ 0 ∨ t.unknownDevice d then t.trapHere .badTarget
    else
      let f := t.fresh
      let e : IngressRec := { cluster := (x.bw.extractLsb' 12 6).toNat, node := (x.bw.extractLsb' 18 3).toNat,
                              value := x.aw, wtag := x.tag &&& 0x00FFFFFF#32 }
      let out : SpanOut := { id := f.1, device := d, rec0 := e, cluster := x.cluster, station := x.station, tag := x.tag }
      { f.2.exportUp x.cluster x.tag with spanOut := f.2.spanOut ++ [out] }) s

end Sys2Proof.Machine
end

