-- ==== Sys2Proof/Machine/Dispatcher.lean ====
section
/-! DEFINITION. The dispatcher (R400 to R429): packets that arrive and are taken, readiness and choice, LAUNCH with its feature
emulation and claim, the other packets, the queue registers that act, deadlock traps, the start of a speculation, and pre-emption. -/

namespace Sys2Proof.Machine

open Sys2Proof

/-- The dispatcher looks at the heads of its queues again. -/
def State.dispatch (s : State) : State := s.dueOnce (.event .dispatchSelect {})

/-! ## Arrival and taking (R401 to R404) -/

/-- The arguments and bindings that an extension block holds (R401). -/
def extWords (b : List Byte) : List Word × List Dword :=
  ((List.range 9).map (fun i => BitVec.ofNat 32 (objNat b (4 * i) 4)),
   (List.range 7).map (fun i => BitVec.ofNat 64 (objNat b (0x28 + 8 * i) 8)))

/-- The arguments of a LAUNCH packet. -/
def packetArgs (l : LaunchPkt) : List Word := [l.arg0, l.arg1, l.arg2, l.arg3, l.arg4, l.arg5, l.arg6]

/-- The sixteen arguments and eight bindings of a LAUNCH without an extension block: those beyond the packet are 0 (R401). -/
def packetWords (l : LaunchPkt) : List Word × List Dword :=
  (packetArgs l ++ List.replicate 9 0, l.bind0 :: List.replicate 7 0)

/-- The sixteen arguments and eight bindings of a LAUNCH of a queue, its extension block read now; the fault of its address (R401). -/
def State.launchWords (s : State) (q : Nat) (l : LaunchPkt) : Except HostFault (List Word × List Dword) × State :=
  if !l.ext then (.ok (packetWords l), s)
  else if l.extptr.toNat % 128 ≠ 0 then (.error { va := l.extptr.toNat, kind := 0 }, s)
  else match State.queueRead 2 s q l.extptr.toNat 96 with
    | (.ok b, s) => (.ok (packetArgs l ++ (extWords b).1, l.bind0 :: (extWords b).2), s)
    | (.error f, s) => (.error f, s)

/-- A queue takes a packet (R399, R402, R403): PSEQ counts it, and the extension block of a LAUNCH is read (R401), at the head of the queue where it
first has to come from the new home of a page in hand-over (R338). -/
def State.takePacket (s : State) (q : Nat) (p : BitVec 512) : State :=
  let n := (s.queue q).pseq + 1
  let c : Current := { bytes := p, pseq := n, begun := false, stopped := false, args := [], binds := [] }
  let w : Current × State := match decodePacket q p with
    | .ok (.launch l) =>
      let far := if l.ext then s.queueLines q l.extptr.toNat 96 true else []
      if !s.linesHere far then (c, s.askFar far)
      else (match s.launchWords q l with
       | (.ok w, s) => ({ c with args := w.1, binds := w.2 }, s.useFar far)
       | (.error f, s) => ({ c with bad := some (f.va, f.kind) }, s.useFar far))
    | _ => (c, s)
  (w.2.updQueue q (fun k => { k with pseq := n, taken := k.taken ++ [w.1] })).dispatch

/-- The packets that wait in the aperture of a queue are taken in order while its EN is 1 (R399). The fuel is their number. -/
def State.takeSealed : Nat → State → Nat → State
  | 0, s, _ => s
  | fuel + 1, s, q =>
    match (s.queue q).sealed with
    | [] => s
    | p :: rest => State.takeSealed fuel ((s.updQueue q (fun k => { k with sealed := rest })).takePacket q p) q

/-- APERTURE_SEAL (R399, R402): an enabled queue takes the packet in its aperture; while EN is 0 it stays there, and with 16 so held,
flow control holds the write, and the writes behind it. -/
def execApertureSeal (q : Nat) (s : State) : Host.Outcome State Fault Refusal :=
  let k := s.queue q
  done (
    if !s.takesWrites then s
    else if k.qctl.getLsbD 31 then s.takePacket q k.aperture
    else if 16 ≤ k.sealed.length then
      { s with agenda := .write (0x10000 + 256 * q + 0xBF) [0] :: s.agenda }
    else s.updQueue q (fun k => { k with sealed := k.sealed ++ [k.aperture] }))

/-- The address of the next slot of a launch window (R402). -/
def Queue.slotAt (k : Queue) : Nat := k.winbase.toNat + 64 * (k.slot % 256)

/-- Slots of a launch window whose SEAL has its lap value are taken in order (R402). The fuel is the number of slots. A slot in the page in
hand-over is looked at, and looked at again, in what its new home answers (R338). -/
def State.parseWindow : Nat → State → Nat → State
  | 0, s, _ => s
  | fuel + 1, s, q =>
    let k := s.queue q
    let at_ := k.slotAt
    if !s.linesHere [at_ / 128] then (s.askFar [at_ / 128]).dueOnce (.event .launchWindowSeal { queue := q })
    else if s.readPhysNat (at_ + 63) 1 = lapSeal k.slot 256 then
      let p : BitVec 512 := BitVec.ofNat 512 (s.readPhysNat at_ 64)
      State.parseWindow fuel ((s.updQueue q (fun k => { k with slot := k.slot + 1 })).takePacket q p) q
    else if s.inLentPage at_ then (s.useFar [at_ / 128]).dueOnce (.event .launchWindowSeal { queue := q })
    else s

/-- LAUNCH_WINDOW_SEAL (R402): the line monitor of a privileged queue takes what has been sealed; nothing while EN is 0. -/
def execLaunchWindowSeal (s : State) : Host.Outcome State Fault Refusal :=
  let q := s.cur.queue
  done (if q < 4 ∧ (s.queue q).qctl.getLsbD 31 then State.parseWindow 256 s q else s)

/-- The next packet that a queue has taken comes to its head, while the queue is enabled and has none in hand (R404). -/
def State.nextHead (s : State) (q : Nat) : State :=
  let k := s.queue q
  match k.taken, k.current with
  | c :: rest, none => if k.qctl.getLsbD 31 then s.updQueue q (fun k => { k with taken := rest, current := some c }) else s
  | _, _ => s

/-! ## What a LAUNCH would run (R411, R418, R420) -/

/-- What a LAUNCH comes to before it begins: a failure, a stop for a feature (R418), or the object that runs. -/
inductive LaunchFate where
  | fail (st : PacketStatus)
  | stop
  | run (o : Obj) (image : Option Nat)
  deriving DecidableEq, Repr

/-- A loaded object that a launch may name (R411, R420): not retiring, and not one that holds an amendment image (R128). -/
def State.launchable (s : State) (h : Word) : Option Obj :=
  (s.object? h).filter (fun o => h != 0 && !o.retiring && !o.images.any (fun i => i.amend))

/-- The object that a LAUNCH of a queue runs (R411, R418): the routine of the lowest absent feature bit runs in its place. -/
def State.launchTarget (s : State) (q : Nat) (l : LaunchPkt) : LaunchFate :=
  if !(Rect.ofHalf l.rect).legal then .fail .rect
  else match s.launchable l.handle with
    | none => .fail .handle
    | some o =>
      match o.routines with
      | [] => .run o o.firstStep
      | (_, h) :: _ =>
        if (s.queue q).qctl.getLsbD 2 then .stop
        else match s.launchable h with
          | some r => .run r r.firstStep
          | none => .fail .feature

/-- The launch that a LAUNCH packet makes, of an object and its first image, under its queue's registers as they stand (R399). -/
def State.newLaunch (s : State) (id q : Nat) (k : Current) (l : LaunchPkt) (o : Obj) (image : Nat) : Launch :=
  let r := s.queue q
  { id := id, queue := q, pseq := k.pseq, handle := l.handle, object := o.handle, rect := Rect.ofHalf l.rect, args := k.args,
    binds := k.binds, classes := l.classes, prio := l.prio.toNat, notify := l.notify, mayspec := l.spec, step := 0, steps := 0,
    image := image, start := s.refCount, counted := 0, wdog := r.wdog, barked := false, qctl := r.qctl, root := r.root,
    l1quota := r.l1quota, vquota := r.vquota, spec := false, claimed := false, killed := false, began := s.refCount }

/-- Whether a LAUNCH can begin now, so far as placement and CTX go (R405). One that fails, stops or claims needs neither. -/
def State.launchReady (s : State) (q : Nat) (k : Current) (l : LaunchPkt) : Bool :=
  match s.launchTarget q l with
  | .run o (some n) =>
    let m := s.newLaunch 0 q k l o n
    s.claims q m || (match o.images[n]? with | some i => s.canStart m i | none => true)
  | _ => true

/-! ## Readiness and choice (R405) -/

/-- A head that the dispatcher has still to begin, of an enabled queue. -/
def State.waitingHead (s : State) (q : Nat) : Option (Current × Except Reject Instr) :=
  let k := s.queue q
  match k.current with
  | some c => if k.qctl.getLsbD 31 && !c.begun then some (c, decodePacket q c.bytes) else none
  | none => none

/-- Whether the extension block of a LAUNCH is still to be read. -/
def Current.unread (k : Current) (l : LaunchPkt) : Bool := l.ext && k.args == [] && k.bad.isNone

/-- The priority of a ready head; none where it is not ready (R405): a LAUNCH by its CTX and placement, a WAIT and a WAITF by their
conditions (R404). Packets other than LAUNCH have no priority of their own, and stand at 0. -/
def State.readyHead (s : State) (q : Nat) : Option Nat :=
  match s.waitingHead q with
  | some (k, .ok (.launch l)) => if k.bad.isSome || k.unread l || s.launchReady q k l then some l.prio.toNat else none
  | some (_, .ok (.wait t seq)) => if seq.toNat ≤ (s.queue t.toNat).cseq.toNat then some 0 else none
  | some (_, .ok (.waitf _ _)) => if (s.queue q).waiting.isSome then none else some 0
  | some _ => some 0
  | none => none

/-- The better of two ready heads: the higher priority, and among equals the earlier in the round after the last queue chosen. -/
def betterHead (last : Nat) (best x : Nat × Nat) : Nat × Nat :=
  let turn := fun (q : Nat) => (q + 63 - last) % 64
  if best.2 < x.2 ∨ (best.2 = x.2 ∧ turn x.1 < turn best.1) then x else best

/-- The queue whose head begins next (R405). -/
def State.chooseHead (s : State) : Option Nat :=
  match (List.range 64).filterMap (fun q => (s.readyHead q).map (fun p => (q, p))) with
  | [] => none
  | x :: rest => some (rest.foldl (betterHead s.lastQueue) x).1

/-- Whether a queue's head is a LAUNCH held back only by placement or CTX, in a queue where hardware pre-emption is on (R426). -/
def State.heldLaunch (s : State) (q : Nat) : Option LaunchPkt :=
  match s.waitingHead q with
  | some (k, .ok (.launch l)) =>
    if !k.unread l && !s.launchReady q k l && !(s.queue q).qctl.getLsbD 0 && s.regs.dmode.extractLsb' 16 16 != 0 then some l else none
  | _ => none

/-- Whether something still waits for the dispatcher: a head, a delivery that has not begun, or a launch whose next step has not. -/
def State.pending (s : State) : Bool :=
  (List.range 64).any (fun q => (s.waitingHead q).isSome) || s.jobs.any (fun j => !j.begun)
    || s.launches.any (fun l => !l.spec && !s.hasContext l.id)

/-- The lines in the page in hand-over that the flag of a WAITF at the head of a queue is read from. -/
def State.flagLines (s : State) (q : Nat) : List Nat :=
  match s.waitingHead q with
  | some (_, .ok (.waitf addr _)) => s.queueLines q addr.toNat 8 true
  | _ => []

/-- The dispatcher looks at the flag of a WAITF at the head of a queue: one that is not yet at its value is watched (R405, R439). One in the
page in hand-over, where no line is watched here, is looked at again and again in what its new home answers (R338). -/
def State.lookFlag (s : State) (q : Nat) : State :=
  match s.waitingHead q with
  | some (_, .ok (.waitf addr val)) =>
    let far := s.queueLines q addr.toNat 8 true
    let watched : Bool := match (s.queue q).waiting with | some l => !s.inLentPage (l * 128) | none => false
    if addr.toNat % 8 ≠ 0 ∨ watched then s
    else if !s.linesHere far then (s.askFar far).updQueue q (fun k => { k with waiting := far.head? })
    else match s.queueTranslate q addr.toNat false with
      | (.ok t, s) =>
        let low := s.within t.pa && leafMt t.leaf == 0 && decide (s.readPhysNat t.pa 8 < val.toNat)
        s.updQueue q (fun k => { k with waiting := if low then some (t.pa / 128) else none })
      | (.error _, s) => s.updQueue q (fun k => { k with waiting := none })
  | _ => s

/-- The flags at the heads of all queues are looked at; what came from a new home for one that is not yet at its value is not kept. -/
def State.lookFlags (s : State) : State :=
  let s := (s.queues.map (fun e => e.1)).foldl (fun s q => (s.nextHead q).lookFlag q) s
  s.useFar (((List.range 64).filter (fun q => (s.queue q).waiting.isSome && s.linesHere (s.flagLines q))).map s.flagLines).flatten

/-- DISPATCH_SELECT (R404, R405): the packets that queues have taken come to their heads, placing deliveries and the steps of running launches that can begin do, and the
head of the highest priority, round-robin among equals, begins. -/
def execDispatchSelect (s : State) : Host.Outcome State Fault Refusal :=
  let s := s.lookFlags
  let s := s.jobs.foldl (fun s j => if j.begun then s else s.beginJob j) s
  let s := s.launches.foldl (fun s l => if l.spec then s else s.settleLaunch l.id) s
  let s := match s.chooseHead with
    | some q =>
      let s := s.updQueue q (fun k => { k with current := k.current.map (fun (c : Current) => { c with begun := true }) })
      { s with lastQueue := q }.first (.packet q)
    | none => s
  let s := (List.range 64).foldl (fun s q =>
    if (s.heldLaunch q).isSome then s.dueOnce (.event .preemptFreeze { queue := q }) else s) s
  done (if s.pending then s.dispatch else s)

/-! ## LAUNCH (R391, R406, R418) -/

/-- A launch begins: it claims the queue's speculation where that matches, and otherwise discards it and starts its first step (R380,
R391 to R393, R406). -/
def State.beginLaunch (s : State) (q : Nat) (k : Current) (l : LaunchPkt) (o : Obj) (image : Option Nat) : State :=
  let f := s.fresh
  let m := f.2.newLaunch f.1 q k l o (image.getD 0)
  if f.2.claims q m then (f.2.learn q m).claim q m
  else
    let s := (f.2.discardSpec q false).learn q m
    let s := { s with launches := s.launches ++ [m] }
    let s := s.dueOnce (.event .ferryStart { queue := q })
    match image with
    | some _ => s.startStep m
    | none => s.completeLaunch m .ok { evtype := 2 }

/-- The head packet of a queue as a LAUNCH in hand, or the fault of its extension block. -/
def State.launchHead (s : State) (q : Nat) (l : LaunchPkt) : Except HostFault Current :=
  match (s.queue q).current with
  | some k =>
    (match k.bad with
     | some f => .error { va := f.1, kind := f.2 }
     | none => .ok (if k.args = [] then { k with args := (packetWords l).1, binds := (packetWords l).2 } else k))
  | none => .error { va := 0, kind := 0 }

/-- The extension block that a LAUNCH could not read when it was taken is read once its lines are here; the head then takes its turn as every
other does (R338, R401, R405). -/
def State.readBlock (s : State) (q : Nat) (l : LaunchPkt) : State :=
  let far := s.queueLines q l.extptr.toNat 96 true
  if !s.linesHere far then (s.askFar far).again q
  else
    let w := s.launchWords q l
    ((w.2.useFar far).updQueue q (fun k => { k with current := k.current.map (fun (c : Current) =>
      match w.1 with
      | .ok v => { c with args := v.1, binds := v.2, begun := false }
      | .error f => { c with bad := some (f.va, f.kind), begun := false }) })).dispatch

/-- A LAUNCH begins, fails, or stops its queue for a feature with an EVTYPE 5 event (R406, R411, R418). -/
def State.runLaunch (s : State) (q : Nat) (l : LaunchPkt) : State :=
  if ((s.queue q).current.map (fun k => k.unread l)).getD false then s.readBlock q l
  else match s.launchHead q l with
  | .error f => s.failAddress q f
  | .ok k =>
    match s.launchTarget q l with
    | .fail st => s.completePacket q st { evtype := 2 } false
    | .stop => (s.beginPacket q).post q { evtype := 5, queue := q, pseq := k.pseq.toNat }
    | .run o n =>
      match (if s.claims q (s.newLaunch 0 q k l o (n.getD 0)) then s.claimWaits q else none) with
      | some s => s.again q
      | none => s.beginLaunch q k l o n

/-- LAUNCH (R406). -/
def execLaunch (l : LaunchPkt) (s : State) : Host.Outcome State Fault Refusal := done (s.runLaunch s.cur.queue l)

/-- The stopped packet of a queue goes on: it is stopped no more, and a further CONTINUE finds none (R418). -/
def State.continuePacket (s : State) (q : Nat) : State :=
  s.updQueue q (fun k => { k with current := k.current.map (fun p => { p with stopped := false }) })

/-- CONTINUE (R418): the queue that has stopped launches the object named in place of its own, or its launch completes with FEATURE. -/
def execContinuePkt (q : Byte) (handle : Word) (s : State) : Host.Outcome State Fault Refusal :=
  let t := q.toNat
  let fin := fun (s : State) => s.completePacket s.cur.queue .ok { evtype := 2 } false
  done (
    match (s.queue t).current with
    | some k =>
      (match k.stopped, decodePacket t k.bytes with
       | true, .ok (.launch l) =>
         (match s.launchHead t l with
          | .ok k =>
            (match s.launchable handle with
             | some o => ((fin s).continuePacket t).beginLaunch t k l o o.firstStep
             | none => (fin s).completePacket t .feature { evtype := 2 } false)
          | .error f => (fin s).failAddress t f)
       | _, _ => fin s)
    | none => fin s)

/-! ## WAIT, WAITF, SIGNAL (R400, R404, R439) -/

/-- WAIT (R400): completes when CSEQ of the queue named has reached SEQ. -/
def execWait (q : Byte) (seq : Dword) (s : State) : Host.Outcome State Fault Refusal :=
  done (if seq.toNat ≤ (s.queue q.toNat).cseq.toNat then s.completePacket s.cur.queue .ok { evtype := 2 } false
    else s.again s.cur.queue)

/-- The flag of a WAITF is read (R400, R439): at or above the value it completes; an address that is not a natural place in coherent
cacheable memory completes with FORMAT; otherwise the head waits on, and its line is watched. -/
def State.checkFlag (s : State) (q : Nat) (addr val : Dword) : State :=
  if addr.toNat % 8 ≠ 0 then s.failAddress q { va := addr.toNat, kind := 0 }
  else
    let far := s.queueLines q addr.toNat 8 true
    if !s.linesHere far then (s.askFar far).again q
    else match s.queueTranslate q addr.toNat false with
    | (.error f, s) => (s.useFar far).failAddress q f
    | (.ok t, s) =>
      let flag := s.readPhysNat t.pa 8
      let s := s.useFar far
      if !s.within t.pa || leafMt t.leaf != 0 then s.failAddress q { va := addr.toNat, kind := 0 }
      else if val.toNat ≤ flag then s.completePacket q .ok { evtype := 2 } false
      else (s.updQueue q (fun k => { k with waiting := some (t.pa / 128), current := k.current.map (fun (c : Current) => { c with begun := false }) })).dispatch

/-- WAITF (R439). -/
def execWaitf (addr val : Dword) (s : State) : Host.Outcome State Fault Refusal := done (s.checkFlag s.cur.queue addr val)

/-- WAITF_FLAG_RECHECK (R405, R439): the line of a waited flag was written. The dispatcher reads the flag again when it looks at its heads; a
head whose flag has reached its value is ready, and takes its turn. -/
def execWaitfFlagRecheck (s : State) : Host.Outcome State Fault Refusal :=
  done ((s.updQueue s.cur.queue (fun k => { k with waiting := none })).dispatch)

/-- The request of a SIGNAL to another device: the dispatcher's own, from no cluster. -/
def signalReq (id q : Nat) (pa : Nat) (val : Dword) : MemReq :=
  { id := id, cluster := 64, station := q, tag := 0, kind := .store, va := BitVec.ofNat 64 pa, size := 8,
    data := bytesOfNat 8 val.toNat, release := true, stage := .away }

/-- SIGNAL (R400, R404): a release store of VALUE at .sys; the packet completes when it is visible. A counter line with slabs out is
recalled first (R363). -/
def execSignal (addr val : Dword) (s : State) : Host.Outcome State Fault Refusal :=
  let q := s.cur.queue
  done (
    let far := s.queueLines q addr.toNat 8 false
    if !s.linesHere far then (s.askFar far).again q
    else match s.queueTranslate q addr.toNat true with
    | (.error f, s) => (s.useFar far).failAddress q f
    | (.ok t, s) =>
      match s.physPlace t.pa with
      | .remote d =>
        let f := s.fresh
        { f.2 with reqs := f.2.reqs ++ [signalReq f.1 q t.pa val] }.toSpan f.1 d t.pa
      | _ =>
        if s.inLentPage t.pa then
          (if s.moving then s.again q
           else
             let f := (s.useFar far).fresh
             { f.2 with reqs := f.2.reqs ++ [signalReq f.1 q t.pa val] }.toSpan f.1 s.borrower (s.newHome t.pa))
        else if s.slabsOut (t.pa / 128) then (s.recallFor (t.pa / 128) 0).again q
        else match State.queueWrite 2 s q addr.toNat (bytesOfNat 8 val.toNat) with
          | (.ok _, s) => (s.useFar far).completePacket q .ok { evtype := 2 } false
          | (.error f, s) => (s.useFar far).failAddress q f)

/-! ## KILL, RETRY, RELEASE, TLBINV (R414, R415, R419, R428) -/

/-- Every context of a launch is discarded, and its sequencing program ends (R419). -/
def State.killLaunch (s : State) (id : Nat) : State :=
  let s := s.updLaunch id (fun l => { l with killed := true })
  let mine := s.contexts.filter (fun k => k.launch == id)
  let areas := (s.saves.filter (fun e => mine.any (fun k => e.2.ctxs.contains k.id))).map (fun e => e.1)
  let s := s.unstick areas
  let s := mine.foldl (fun s k => if k.saved then s.dropSaved k else if k.killed then s else s.purgeCtx k false) s
  s.settleLaunch id

/-- KILL (R404, R419): the running launch of a queue and its speculation are discarded; the packet completes when the launch has, and the
counts of every context discarded have reached zero. -/
def execKill (q : Byte) (s : State) : Host.Outcome State Fault Refusal :=
  let me := s.cur.queue
  let t := q.toNat
  done (
    if ((s.queue me).current.map (fun k => k.stopped)).getD false then
      let mine := ((s.queue me).current.map (fun k => k.discarded)).getD []
      (if s.launches.any (fun l => l.queue == t && l.killed) || s.contexts.any (fun k => mine.contains k.id) then s.again me
       else s.completePacket me .ok { evtype := 2 } false)
    else
      let mine := ((s.ferryOf t).spec.map (fun x => (s.contexts.filter (fun k => k.launch == x.launch)).map (fun k => k.id))).getD []
      let s := ((s.discardSpec t true).beginPacket me).updQueue me (fun k =>
        { k with current := k.current.map (fun p => { p with discarded := mine }) })
      match s.runningLaunch t with
      | some l => (s.killLaunch l.id).again me
      | none => if mine.isEmpty then s.completePacket me .ok { evtype := 2 } false else s.again me)

/-- RETRY (R415, R416): the requests held at a station go on from where they had come to; an MO begins its token again. -/
def execRetry (cluster : Byte) (station : Half) (s : State) : Host.Outcome State Fault Refusal :=
  let c := cluster.toNat
  let st := station.toNat
  let mine := fun (q : MemReq) =>
    q.cluster == c && q.station == st && (match q.stage with | .held _ => true | _ => false)
      && (match q.kind with | .streamRead _ => false | _ => true)
  let s := if 0x12C0 ≤ st ∧ st < 0x12C4 then s.retryMo c (st - 0x12C0) else s
  let s := (s.reqs.filter mine).foldl (fun s q =>
    (s.updReq q.id (fun q => { q with stage := .issued })).retryReq q.id) s
  done (s.completePacket s.cur.queue .ok { evtype := 2 } false)

/-- RELEASE (R414). -/
def execRelease (q : Byte) (s : State) : Host.Outcome State Fault Refusal :=
  done ((s.releaseQueue q.toNat).completePacket s.cur.queue .ok { evtype := 2 } false)

/-- Whether a cached translation is of a named range, made through a named root (R428). -/
def Cached.inRange (t : Cached) (va size root : Dword) : Bool :=
  let lo := t.page * 2 ^ pageBits t.level
  (root == 0 || t.root == root) && decide (lo < va.toNat + size.toNat) && decide (va.toNat < lo + 2 ^ pageBits t.level)

/-- TLBINV (R428). -/
def execTlbinv (va size root : Dword) (s : State) : Host.Outcome State Fault Refusal :=
  let s := { s with regions := s.regions.map (fun (e : Nat × Region) =>
    (e.1, { e.2 with tlb := e.2.tlb.filter (fun t => !t.inRange va size root) })) }
  done (s.completePacket s.cur.queue .ok { evtype := 2 } false)

/-! ## Queue registers that act (R397, R399, R410) -/

/-- EVHEAD_WRITE (R410): the host has consumed entries, and held events are posted. -/
def execEvheadWrite (q : Nat) (val : Word) (s : State) : Host.Outcome State Fault Refusal :=
  done (
    if s.takesWrites then
      let s := s.updQueue q (fun k => { k with evhead := val })
      State.drainEvents (s.queue q).events.length s q
    else s)

/-- Bytes written at an offset of a 64-byte slot. -/
def putSlot (v : BitVec 512) (off : Nat) : List Byte → BitVec 512
  | [] => v
  | b :: rest =>
    putSlot ((v &&& ~~~((0xFF : BitVec 512) <<< (8 * off))) ||| (b.zeroExtend 512 <<< (8 * off))) (off + 1) rest

/-- HINT_WRITE (R385, R395, R397): the slot takes the bytes. In host-hint mode a speculation of the queue is discarded, and what the slot
then holds may start one. -/
def execHintWrite (q off : Nat) (data : List Byte) (s : State) : Host.Outcome State Fault Refusal :=
  done (
    if s.takesWrites then
      let s := s.updQueue q (fun k => { k with hint := putSlot k.hint off data })
      if (s.queue q).qctl.getLsbD 3 then
        ((s.discardSpec q true).updFerry q (fun f => { f with hintStopped := false })).dueOnce (.event .ferryStart { queue := q })
      else s
    else s)

/-- QCTL as it is stored for a queue (R399): EVLOG2 from 5 to 12, PRIV as the queue has it, reserved bits 0. -/
def qctlStored (q : Nat) (v : Word) : Word :=
  let log := max 5 (min 12 (v.extractLsb' 20 4).toNat)
  (v &&& 0x8000001F#32) ||| (BitVec.ofNat 32 log <<< 20) ||| (if q < 4 then 0x40000000#32 else 0)

/-- QCTL_WRITE (R379, R399). -/
def execQctlWrite (q : Nat) (val : Word) (s : State) : Host.Outcome State Fault Refusal :=
  done (
    if s.takesWrites then
      let s := s.updQueue q (fun k => { k with qctl := qctlStored q val })
      let s := if val.getLsbD 31 then State.takeSealed (s.queue q).sealed.length s q else s
      let s := if q < 4 then s.dueOnce (.event .launchWindowSeal { queue := q }) else s
      (State.drainEvents (s.queue q).events.length s q).dispatch.dueOnce (.event .ferryStart { queue := q })
    else s)

/-! ## Deadlock (R59, R60, R412) -/

/-- A probe that returns to its origin raises DEADLOCK in the origin's context (R60, R412): the launch is killed, or with DLHOST the
context is TRAPPED. -/
def State.raiseDeadlock (s : State) (c st : Nat) (g : Word) (list : List Nat) : State :=
  match s.ctxAt c (tagCtx g) with
  | none => s
  | some k =>
    if k.killed || k.spec || (s.qctlOf c g).getLsbD 1 then s.takeTrapAt .deadlock c st g 0 0 0 0 0 list
    else (s.trapEvent k .deadlock c st g 0 0 0 0 0 list).killLaunch k.launch

/-- DEADLOCK_PROBE_ARRIVAL (R59, R60): a station that waits passes the probe on along one of its edges; one that does not wait drops it,
and so does one with an address below the origin's. Back at its origin it raises DEADLOCK in the context on whose edge the origin sent
it, where that context still waits there. A context that has become TRAPPED sends no probe, but one on its way goes on (R59); a
discarded context's is dropped. -/
def execDeadlockProbeArrival (s : State) : Host.Outcome State Fault Refusal :=
  let x := s.cur
  let p := x.probe
  let edges := s.waitEdges x.cluster x.station
  let s := s.flightDown x.cluster x.tag
  let gone := match s.ctxAt x.cluster (tagCtx x.tag) with
    | some k => k.killed
    | none => true
  done (
    match s.chooseEdge edges with
    | none => s
    | some e =>
      if gone then s
      else if p.origin = x.station then
        (if edges.any (fun e => tagCtx e.2 == tagCtx x.tag) then s.raiseDeadlock x.cluster x.station x.tag p.list else s)
      else if x.station < p.origin ∨ 4096 ≤ p.hops then s
      else
        let list := if p.list.length < 16 then p.list ++ [x.station] else p.list
        (s.flightUp x.cluster x.tag).dueEvent .deadlockProbeArrival
          { cluster := x.cluster, station := e.1, tag := x.tag, probe := { p with list := list, hops := p.hops + 1 } })

/-! ## The start of a speculation (R383 to R385, R397, R429) -/

/-- What the Ferry would run next for a queue: the hint slot's record in host-hint mode, or the entry of the last LAUNCH with enough
confidence (R379, R382, R397). The hint's extension block is read through the queue's ROOT. -/
def State.prediction (s : State) (q : Nat) (last : Launch) : Option (Current × LaunchPkt) × State :=
  let k := s.queue q
  let cur : Current := { bytes := k.hint, pseq := 0, begun := true, stopped := false, args := [], binds := [] }
  if k.qctl.getLsbD 3 then
    if (s.ferryOf q).hintStopped then (none, s)
    else match decodePacket q k.hint with
    | .ok (.launch l) =>
      let far := if l.ext then s.queueLines q l.extptr.toNat 96 true else []
      if !s.linesHere far then (none, s.askFar far)
      else (match s.launchWords q l with
       | (.ok w, s) => (some ({ cur with args := w.1, binds := w.2 }, l), s.useFar far)
       | (.error _, s) => (none, s.useFar far))
    | _ => (none, s)
  else if (s.ferryOf q).stopped then (none, s)
  else match (s.ferryOf q).table.find? (fun e => e.keyOf last) with
    | some e =>
      if e.confidence < 2 then (none, s)
      else
        let half : Half := BitVec.ofNat 16 (e.rect.x0 + 8 * e.rect.y0 + 64 * e.rect.lw + 256 * e.rect.lh)
        let l : LaunchPkt := { spec := e.mayspec, ext := true, notify := false, prio := 0, handle := e.handle, rect := half,
                               classes := e.classes, bind0 := 0, extptr := 0, arg0 := 0, arg1 := 0, arg2 := 0, arg3 := 0,
                               arg4 := 0, arg5 := 0, arg6 := 0 }
        (some ({ cur with args := e.predicted, binds := e.binds }, l), s)
    | none => (none, s)

/-- Whether a cluster is idle for the Ferry (R383): no live context but those of claimed launches, in no freeze. -/
def State.idleForFerry (s : State) (c : Nat) : Bool :=
  !s.frozen c && (s.ctxsOf c).all (fun k => !k.killed && ((s.launchOf k).map (fun l => l.claimed)).getD false)

/-- Whether a launch that the dispatcher could begin waits for some clusters (R383). -/
def State.wantedBy (s : State) (clusters : List Nat) : Bool :=
  (List.range 64).any (fun q => match s.waitingHead q with
    | some (k, .ok (.launch l)) => s.launchReady q k l && clusters.any (Rect.ofHalf l.rect).contains
    | _ => false)
  || s.launches.any (fun l => !l.spec && !s.hasContext l.id && clusters.any l.rect.contains)

/-- A speculation starts (R384): a warm launch whose registers and LFSR states can be restored. A hint is used once (R397). -/
def State.speculate (s : State) (q : Nat) (k : Current) (l : LaunchPkt) (o : Obj) (image : Nat) (tag : Half) : State :=
  let f := s.fresh
  let m := { f.2.newLaunch f.1 q k l o image with spec := true }
  let clusters := m.rect.clusters
  let hint := (s.queue q).qctl.getLsbD 3
  let x : Speculation := { launch := f.1, hint := hint, landing := [], reads := [], dirty := [], tiles := [], accs := [],
                           lfsrs := clusters.map (fun c => (c, (s.region c).lfsr)), idle := none }
  let s := { f.2 with launches := f.2.launches ++ [m] }.updFerry q (fun f => { f with spec := some x })
  let s := clusters.foldl (fun s c => s.updRegion c (fun r => { r with asleep := false })) s
  let s := if hint then s.updQueue q (fun k => { k with hint := k.hint &&& ~~~(0xFF : BitVec 512) }) else s
  s.addContext m tag

/-- The Ferry starts the prediction where R383 allows it. -/
def State.tryFerry (s : State) (q : Nat) (last : Launch) : State :=
  let count := (s.ferry.filter (fun e => e.2.spec.isSome)).length
  if !last.mayspec || (s.ferryOf q).spec.isSome || 8 ≤ count then s
  else match s.prediction q last with
    | (none, s) => s
    | (some (k, l), s) =>
      if !l.spec then s
      else match s.launchTarget q l with
        | .run o (some n) =>
          (match o.images[n]? with
           | some i =>
             let clusters := (Rect.ofHalf l.rect).clusters
             let m := s.newLaunch 0 q k l o n
             if s.warm m i.tag && clusters.all s.idleForFerry && !s.wantedBy clusters && s.ctxRoom clusters then
               s.speculate q k l o n i.tag
             else s
           | none => s)
        | _ => s

/-- FERRY_START (R383 to R385): the predicted successor of a queue's last LAUNCH starts when every condition holds, and again after a
discard that does not stop it. -/
def execFerryStart (s : State) : Host.Outcome State Fault Refusal :=
  let x := s.cur
  let f := s.ferryOf x.queue
  done (
    match f.last with
    | none => s
    | some last =>
      let s := s.tryFerry x.queue last
      if last.mayspec && !(if (s.queue x.queue).qctl.getLsbD 3 then f.hintStopped else f.stopped) then s.dueOnce (.event .ferryStart { queue := x.queue })
      else s)

/-! ## Pre-emption (R426) -/

/-- Whether every live context of a closure belongs to a launch of lower priority that began a time slice earlier (R426). -/
def State.mayPreempt (s : State) (cs : List Nat) (prio : Nat) : Bool :=
  let slice := (s.regs.dmode.extractLsb' 16 16).toNat * 1024
  let live := s.contexts.filter (fun k => !k.saved && !k.spec && cs.any k.rect.contains)
  live != [] && live.all (fun k => !k.killed && (match s.launchOf k with
    | some l => decide (l.prio < prio) && decide (l.began + slice ≤ s.refCount)
    | none => false))

/-- PREEMPT_FREEZE (R426, R427): the closure that holds back a launch is frozen, where its contexts may be pre-empted and the ring holds
an area for each of its clusters. -/
def execPreemptFreeze (s : State) : Host.Outcome State Fault Refusal :=
  done (
    match s.heldLaunch s.cur.queue with
    | none => s
    | some l =>
      let cs := s.closureOf (Rect.ofHalf l.rect).clusters
      if !s.inFreeze cs && !cs.any s.frozen && s.mayPreempt cs l.prio.toNat
          && decide (cs.length ≤ (s.regs.svprod - s.regs.svcons).toNat) then
        (if s.linesHere s.ringLines then (s.preempt cs).useFar s.ringLines else s.askFar s.ringLines)
      else s)

/-- Whether a head of higher priority than the launches frozen in a closure wants some of its clusters. -/
def State.closureWanted (s : State) (f : Freeze) : Bool :=
  let ids := ((s.namedSaves f.areas).map (fun e => e.2.ctxs)).flatten
  let top := ((s.contexts.filter (fun k => ids.contains k.id)).map (fun k => ((s.launchOf k).map (fun l => l.prio)).getD 0)).foldl max 0
  (List.range 64).any (fun q => match s.waitingHead q with
    | some (_, .ok (.launch l)) => decide (top < l.prio.toNat) && f.clusters.any (Rect.ofHalf l.rect).contains
    | _ => false)

/-- PREEMPT_RESUME (R424, R426). -/
def execPreemptResume (s : State) : Host.Outcome State Fault Refusal :=
  let x := s.cur
  done (
    match s.freezes.find? (fun f => f.id == x.id && f.saved) with
    | some f => s.preemptResume f x (s.closureWanted f)
    | none => s)

end Sys2Proof.Machine
end

