-- ==== Sys2Proof/Machine/Integer.lean ====
section
/-! DEFINITION. Integer arithmetic (group 0x1: R178 to R182). -/

namespace Sys2Proof.Machine

open Sys2Proof

/-- ADD (R179). -/
def execAdd (r : Rec) (s : State) : Host.Outcome State Fault Refusal :=
  resultOf 0x10 r (fun x => lanewise2 (laneType r.fmt) (fun a b => a + b) x.aw x.bw) s

/-- SUB (R179). -/
def execSub (r : Rec) (s : State) : Host.Outcome State Fault Refusal :=
  resultOf 0x11 r (fun x => lanewise2 (laneType r.fmt) (fun a b => wrapBits (laneType r.fmt).w ((a : Int) - b)) x.aw x.bw) s

/-- The carry or borrow in of ADDC and SUBB: c[0], or 0 when port C is unused (R180). -/
def carryIn (x : Site) : Nat := if x.hasC && x.cw.getLsbD 0 then 1 else 0

/-- The two results of ADDC and SUBB: the extended low bits and the carry or borrow out (R180). -/
def emitCarry (r : Rec) (s : State) (v : Nat × Nat) : State :=
  (s.emit r.t0 (.narrow ((laneType r.fmt).ext v.1))).emit r.t1 (.narrow (BitVec.ofNat 32 v.2))

/-- ADDC (R180). -/
def execAddc (r : Rec) (s : State) : Host.Outcome State Fault Refusal :=
  firing 0x12 r (fun t => emitCarry r t (addCarry (laneType r.fmt).w (lane (laneType r.fmt).w s.cur.aw 0)
    (lane (laneType r.fmt).w s.cur.bw 0) (carryIn s.cur))) s

/-- SUBB (R180). -/
def execSubb (r : Rec) (s : State) : Host.Outcome State Fault Refusal :=
  firing 0x13 r (fun t => emitCarry r t (subBorrow (laneType r.fmt).w (lane (laneType r.fmt).w s.cur.aw 0)
    (lane (laneType r.fmt).w s.cur.bw 0) (carryIn s.cur))) s

/-- MUL (R179): the low w bits. -/
def execMul (r : Rec) (s : State) : Host.Outcome State Fault Refusal :=
  resultOf 0x14 r (fun x => lanewise2 (laneType r.fmt) (fun a b => a * b) x.aw x.bw) s

/-- MULHS (R179): the high half of the signed product. -/
def execMulhs (r : Rec) (s : State) : Host.Outcome State Fault Refusal :=
  resultOf 0x15 r (fun x => lanewise2 (laneType r.fmt) (fun a b => wrapBits (laneType r.fmt).w (toSigned (laneType r.fmt).w a * toSigned (laneType r.fmt).w b / 2 ^ (laneType r.fmt).w)) x.aw x.bw) s

/-- MULHN (R179): the high half of the natural product. -/
def execMulhn (r : Rec) (s : State) : Host.Outcome State Fault Refusal :=
  resultOf 0x16 r (fun x => lanewise2 (laneType r.fmt) (fun a b => a * b / 2 ^ (laneType r.fmt).w) x.aw x.bw) s

/-- DIVS (R133, R181). -/
def execDivs (r : Rec) (s : State) : Host.Outcome State Fault Refusal :=
  resultOf 0x17 r (fun x => lanewise2 (laneType r.fmt) (fun a b => (divSigned (laneType r.fmt).w a b).1) x.aw x.bw) s

/-- DIVN (R133, R181). -/
def execDivn (r : Rec) (s : State) : Host.Outcome State Fault Refusal :=
  resultOf 0x18 r (fun x => lanewise2 (laneType r.fmt) (fun a b => (divNatural (laneType r.fmt).w a b).1) x.aw x.bw) s

/-- REMS (R133, R181). -/
def execRems (r : Rec) (s : State) : Host.Outcome State Fault Refusal :=
  resultOf 0x19 r (fun x => lanewise2 (laneType r.fmt) (fun a b => (divSigned (laneType r.fmt).w a b).2) x.aw x.bw) s

/-- REMN (R133, R181). -/
def execRemn (r : Rec) (s : State) : Host.Outcome State Fault Refusal :=
  resultOf 0x1A r (fun x => lanewise2 (laneType r.fmt) (fun a b => (divNatural (laneType r.fmt).w a b).2) x.aw x.bw) s

/-- ABS (R182): modulo 2^w. -/
def execAbs (r : Rec) (s : State) : Host.Outcome State Fault Refusal :=
  resultOf 0x1B r (fun x => lanewise1 (laneType r.fmt) (fun a => (toSigned (laneType r.fmt).w a).natAbs) x.aw) s

/-- MINS (R179). -/
def execMins (r : Rec) (s : State) : Host.Outcome State Fault Refusal :=
  resultOf 0x1C r (fun x => lanewise2 (laneType r.fmt) (fun a b => if lessSigned (laneType r.fmt).w b a then b else a) x.aw x.bw) s

/-- MAXS (R179). -/
def execMaxs (r : Rec) (s : State) : Host.Outcome State Fault Refusal :=
  resultOf 0x1D r (fun x => lanewise2 (laneType r.fmt) (fun a b => if lessSigned (laneType r.fmt).w a b then b else a) x.aw x.bw) s

/-- MINN (R179). -/
def execMinn (r : Rec) (s : State) : Host.Outcome State Fault Refusal :=
  resultOf 0x1E r (fun x => lanewise2 (laneType r.fmt) (fun a b => min a b) x.aw x.bw) s

/-- MAXN (R179). -/
def execMaxn (r : Rec) (s : State) : Host.Outcome State Fault Refusal :=
  resultOf 0x1F r (fun x => lanewise2 (laneType r.fmt) (fun a b => max a b) x.aw x.bw) s

end Sys2Proof.Machine
end

