-- ==== Sys2Proof/Machine/Join.lean ====
section
/-! DEFINITION. JOIN and JCFG (0xAB and 0xAC, R251 to R253) and the arrival of a part. -/

namespace Sys2Proof.Machine

open Sys2Proof

/-- The key of a context's group on the join element of a station (R251). -/
def groupKey (x : BitVec 8) (st : Nat) : Nat := x.toNat * 16 + (st - 0x1300) / 8

/-- The group word of a cluster alone in a rectangle (R251). -/
def ownGroup (k : Rect) (c : Nat) : BitVec 10 := BitVec.ofNat 10 ((c / 8 - k.y0) * 8 + (c % 8 - k.x0))

/-- The group of a context on a join element: its own cluster before any JCFG (R251). -/
def State.groupAt (s : State) (c st : Nat) (g : Word) : BitVec 10 :=
  (s.region c).groups.getD (groupKey (tagCtx g) st) (ownGroup (s.rectOf c g) c)

/-- The clusters of a group in a rectangle (R248). -/
def groupClusters (k : Rect) (w : BitVec 10) : List Nat :=
  let sub : Rect := { x0 := k.x0 + bits w.toNat 2 0, y0 := k.y0 + bits w.toNat 5 3, lw := bits w.toNat 7 6,
                      lh := bits w.toNat 9 8 }
  sub.clusters

/-- JCFG (R251): a group that is no aligned sub-rectangle with its own cluster raises ACCESS (R248). -/
def execJcfg (r : Rec) (s : State) : Host.Outcome State Fault Refusal :=
  firing 0xAC r (fun t =>
    let x := s.cur
    let w := x.bw.extractLsb' 0 10
    if groupOk (t.rectOf x.cluster x.tag) x.cluster w then
      (t.updRegion x.cluster (fun k => { k with groups := k.groups.set (groupKey (tagCtx x.tag) x.station) w })).sendWord r 0
    else t.trapHere .access) s

/-- The first value of a part, and the combination of two (R252). -/
def joinFirst (op : Nat) (a : Word) : Word := if op = 0 then 1 else a

def joinFold (op : Nat) (p v : Word) : Word :=
  if op ≤ 1 then p + v
  else if op = 2 then (if v.slt p then v else p)
  else if op = 3 then (if p.slt v then v else p)
  else if op = 4 then (if v.ult p then v else p)
  else if op = 5 then (if p.ult v then v else p)
  else if op = 6 then p &&& v
  else p ||| v

/-- The first round of a list that meets a condition, changed; none where no round does. -/
def updFirst (p : Round → Bool) (f : Round → Round) : List Round → Option (List Round)
  | [] => none
  | x :: rest => if p x then some (f x :: rest) else (updFirst p f rest).map (fun l => x :: l)

/-- The group of a round that something has reached. -/
def Round.known (x : Round) : List (BitVec 10) := if x.seen = 0 ∧ x.parts = [] then [] else [x.group]

/-- The groups whose clusters have still to hear that a round is bad: its own, and others that it has met (R253). -/
def Round.toTell (x : Round) (met : List (BitVec 10)) : List (BitVec 10) :=
  if x.bad then ((x.known ++ met).eraseDups).filter (fun g => !x.told.contains g) else []

/-- A round whose groups have heard. -/
def Round.tell (x : Round) (met : List (BitVec 10)) : Round := { x with told := x.told ++ x.toTell met }

/-- A round of a station and tag whose local count is not reached (R252). -/
def Round.counting (x : Round) (st : Nat) (g : Word) : Bool :=
  x.station == st && x.tag == g && (x.seen == 0 || decide (x.seen < x.count.toNat))

/-- A round that began with the parts of other clusters takes its own group and count at its first local arrival; parts that
disagree make it bad (R253). -/
def Round.fold (x : Round) (op : Nat) (a : Word) (group : BitVec 10) (count : BitVec 16) : Round :=
  if x.seen = 0 then
    { x with bad := x.bad || (x.parts != [] && (x.group != group || x.count != count)), group := group, count := count,
             seen := 1, part := joinFirst op a }
  else { x with seen := x.seen + 1, part := joinFold op x.part (joinFirst op a) }

/-- A round that nothing has reached. -/
def newRound (st : Nat) (g : Word) : Round :=
  { station := st, tag := g, group := 0, count := 0, seen := 0, part := 0, parts := [], bad := false }

/-- The rounds of a region with the one that an arrival counts in. -/
def foldRounds (rounds : List Round) (st : Nat) (g : Word) (f : Round → Round) (p : Round → Bool) : List Round :=
  (updFirst p f rounds).getD (rounds ++ [f (newRound st g)])

/-- A round that is complete: its local count is reached and every other cluster of its group has sent its part. -/
def State.joinDone (s : State) (c : Nat) (x : Round) : Bool :=
  x.seen != 0 && x.seen == x.count.toNat
    && decide (x.parts.length + 1 = (groupClusters (s.rectOf c x.tag) x.group).length)

/-- The complete rounds of a station and tag end: the result goes to both targets, or nothing where parts disagreed (R252,
R253). While the context may not fire the result is held (R414). -/
def State.settleJoin (s : State) (c st : Nat) (g : Word) : State :=
  let mine := fun (x : Round) => x.station == st && x.tag == g && s.joinDone c x
  let ended := (s.region c).rounds.filter mine
  let op := (s.recAt c st).flags.toNat
  if ended.isEmpty then s
  else if !s.runs c g then s.dueOnce (.event .joinPartArrival { cluster := c, station := st, tag := g })
  else
  let s := s.updRegion c (fun r => { r with rounds := r.rounds.filter (fun x => !mine x) })
  ended.foldl (fun s x =>
    let v := x.parts.foldl (fun v p => joinFold op v p.2) x.part
    let s := s.updCounts c (tagCtx g) (fun k => { k with flight := k.flight - (1 + x.parts.length) })
    let r := s.recAt c st
    if x.bad then s else (s.emitTo c st r.t0 (.narrow v) g).emitTo c st r.t1 (.narrow v) g) s

/-- The part of a round whose local count is reached goes to every other cluster of its group as export traffic (R62, R252). -/
def State.sendParts (s : State) (c st : Nat) (g : Word) (x : Round) : State :=
  ((groupClusters (s.rectOf c g) x.group).filter (fun d => d != c)).foldl (fun s d =>
    let f := s.fresh
    (f.2.exportUp c g).dueEvent .joinPartArrival
      { cluster := d, id := f.1,
        part := { src := c, dst := d, station := st, tag := g, group := x.group, count := x.count, value := x.part } }) s

/-- A round in which parts disagree is bad in every cluster of the groups that it has met: each hears of it once from here, as export traffic
(R253). -/
def State.sendBad (s : State) (c st : Nat) (g : Word) (x : Round) (groups : List (BitVec 10)) : State :=
  let k := s.rectOf c g
  let mine := groupClusters k x.group
  let sent := x.seen != 0 && x.seen == x.count.toNat
  (((groups.map (groupClusters k)).flatten.eraseDups).filter (fun d => d != c)).foldl (fun s d =>
    let f := s.fresh
    (f.2.exportUp c g).dueEvent .joinPartArrival
      { cluster := d, id := f.1,
        part := { src := c, dst := d, station := st, tag := g, group := x.group, count := x.count, value := 0, bad := true,
                  after := sent && mine.contains d } }) s

/-- Bad rounds of a station and tag raise ILLEGAL once (R253): `was` says whether one was bad before. -/
def State.raiseBad (s : State) (c st : Nat) (g : Word) (was : Bool) : State :=
  if !was && (s.region c).rounds.any (fun x => x.station == st && x.tag == g && x.bad) then
    s.takeTrap .illegal c st g 0 0
  else s

/-- Whether a round of a station and tag is bad already. -/
def State.wasBad (s : State) (c st : Nat) (g : Word) : Bool :=
  (s.region c).rounds.any (fun x => x.station == st && x.tag == g && x.bad)

/-- An arrival at a JOIN with its count (R252). -/
def State.joinArrive (s : State) (r : Rec) : State :=
  let x := s.cur
  let count := x.bw.extractLsb' 0 16
  let open_ := (s.region x.cluster).rounds.find? (fun e => e.counting x.station x.tag)
  if count = 0 then s.trapHere .illegal
  else if (open_.map (fun e => e.seen != 0 && e.count != count)).getD false then s.trapHere .illegal
  else
    let group := s.groupAt x.cluster x.station x.tag
    let first := (open_.map (fun e => e.seen == 0)).getD true
    let was := s.wasBad x.cluster x.station x.tag
    let f := fun (e : Round) => e.fold r.flags.toNat x.aw group count
    let told := fun (e : Round) => (f e).tell e.known
    let s := s.updRegion x.cluster (fun k =>
      { k with rounds := foldRounds k.rounds x.station x.tag told (fun e => e.counting x.station x.tag) })
    let s := if first then s.flightUp x.cluster x.tag else s
    let old := open_.getD (newRound x.station x.tag)
    let now := f old
    let sent := now.seen == now.count.toNat
    let s := if sent then s.sendParts x.cluster x.station x.tag now else s
    let s := s.sendBad x.cluster x.station x.tag now (now.toTell old.known)
    (s.raiseBad x.cluster x.station x.tag was).settleJoin x.cluster x.station x.tag

/-- JOIN (R252). -/
def execJoin (r : Rec) (s : State) : Host.Outcome State Fault Refusal :=
  firing 0xAB r (fun t => t.joinArrive r) s

/-- Whether an earlier part of the same source, station and tag is still on its way to a cluster. -/
def State.earlierPart (s : State) (x : Site) : Bool :=
  s.agenda.any (fun a =>
    match a with
    | .event .joinPartArrival y =>
      y.part.src == x.part.src && y.part.dst == x.part.dst && y.part.station == x.part.station
        && y.part.tag == x.part.tag && decide (y.id < x.id)
    | _ => false)

/-- The round with a part of another cluster (R252, R253). -/
def Round.take (e : Round) (p : JoinPart) : Round :=
  if e.seen = 0 ∧ e.parts = [] then { e with group := p.group, count := p.count, parts := [(p.src, p.value)] }
  else { e with bad := e.bad || e.group != p.group || e.count != p.count, parts := e.parts ++ [(p.src, p.value)] }

/-- Word that a round is bad reaches a cluster: it is the round of the sender's last part where that has been sent, and otherwise the first
that has none of the sender; with the round over, the trap alone. The clusters of the round's own group hear of it from here, where they are
not those of the sender's (R253). -/
def State.takeBad (s : State) (p : JoinPart) : State :=
  let was := s.wasBad p.dst p.station p.tag
  let here := fun (e : Round) => e.station == p.station && e.tag == p.tag
  let spoil := fun (e : Round) => { e with bad := true, told := if e.told.contains p.group then e.told else e.told ++ [p.group] }
  let told := fun (e : Round) => (spoil e).tell []
  let rounds := (s.region p.dst).rounds
  let forward := fun (s : State) (e : Round) =>
    (s.sendBad p.dst p.station p.tag (spoil e) ((spoil e).toTell [])).raiseBad p.dst p.station p.tag was
  if p.after then
    let its := fun (e : Round) => here e && e.parts.any (fun q => q.1 == p.src)
    match updFirst its told rounds.reverse, rounds.reverse.find? its with
    | some l, some e => forward (s.updRegion p.dst (fun r => { r with rounds := l.reverse })) e
    | _, _ => s.takeTrap .illegal p.dst p.station p.tag 0 0
  else
    let fits := fun (e : Round) => here e && !e.parts.any (fun q => q.1 == p.src)
    forward (s.updRegion p.dst (fun r => { r with rounds := foldRounds r.rounds p.station p.tag told fits }))
      ((rounds.find? fits).getD (newRound p.station p.tag))

/-- JOIN_PART_ARRIVAL (R252, R253): the part counts in the first round that has none of its source. A discarded context's part is
dropped (R419). An event without a part looks at a held result again. -/
def execJoinPartArrival (s : State) : Host.Outcome State Fault Refusal :=
  let x := s.cur
  let p := x.part
  done (
    if x.id = 0 then s.settleJoin x.cluster x.station x.tag
    else if s.earlierPart x then s.dueEvent .joinPartArrival x
    else
      match s.ctxAt p.dst (tagCtx p.tag) with
      | none => s.exportDown p.src p.tag
      | some k =>
        let s := s.exportDown p.src p.tag
        if k.killed then s
        else if p.bad then s.takeBad p
        else
          let was := s.wasBad p.dst p.station p.tag
          let fits := fun (e : Round) =>
            e.station == p.station && e.tag == p.tag && !e.parts.any (fun q => q.1 == p.src)
          let t := s.updRegion p.dst (fun r =>
            { r with rounds := foldRounds r.rounds p.station p.tag (fun e => (e.take p).tell (p.group :: e.known)) fits })
          let old := ((s.region p.dst).rounds.find? fits).getD (newRound p.station p.tag)
          let now := old.take p
          let s := t.sendBad p.dst p.station p.tag now (now.toTell (p.group :: old.known))
          ((s.flightUp p.dst p.tag).raiseBad p.dst p.station p.tag was).settleJoin p.dst p.station p.tag)

end Sys2Proof.Machine
end

