-- ==== Sys2Proof/Machine/System.lean ====
section
/-! DEFINITION. The system instructions (0xF2 to 0xF9, R204 to R212). -/

namespace Sys2Proof.Machine

open Sys2Proof

/-! ## System registers (R205) -/

/-- SYS.CLUID of a cluster (R16). -/
def cluidOf (c : Nat) : Word := BitVec.ofNat 32 (dieOf c * 64 + c / 8 * 8 + c % 8)

/-- The base-slot key and half that a register number from 0x0100 to 0x02FF names, for a context (R205). -/
def baseKey (x : BitVec 8) (n : Nat) : Nat := x.toNat * 256 + (n - 0x100) / 2

/-- The register of a number, as the context of a tag reads it in a cluster (R205, R206). -/
def State.sysRead (s : State) (c : Nat) (x : BitVec 8) (n : Nat) : Word :=
  if n = 0 then cluidOf c
  else if n = 2 then (s.region c).exitv.getD x.toNat 0
  else if n = 3 then (s.region c).srseed
  else if n = 4 then (s.region c).brken
  else if n = 5 then BitVec.ofNat 32 s.fclk
  else if 0x100 ≤ n ∧ n < 0x300 then
    let v := (s.region c).bases.getD (baseKey x n) 0
    if n % 2 = 0 then v.extractLsb' 0 32 else v.extractLsb' 32 32
  else 0

/-- A write of a register; read-only registers take none, and reserved bits read zero (R205, R206). A write of SYS.SRSEED loads the
register of every VE (R146). -/
def State.sysWrite (s : State) (c : Nat) (x : BitVec 8) (n : Nat) (v : Word) : State :=
  if n = 2 then s.updRegion c (fun r => { r with exitv := r.exitv.set x.toNat v })
  else if n = 3 then s.updRegion c (fun r => { r with srseed := v, lfsr := (List.range 32).map (lfsrLoad v) })
  else if n = 4 then s.updRegion c (fun r => { r with brken := v &&& 1 })
  else if 0x100 ≤ n ∧ n < 0x300 then
    s.updRegion c (fun r =>
      let old := r.bases.getD (baseKey x n) 0
      let new : Dword := if n % 2 = 0 then old.extractLsb' 32 32 ++ v else v ++ old.extractLsb' 0 32
      { r with bases := r.bases.set (baseKey x n) new })
  else s

/-- SYSRD (R206). -/
def execSysrd (r : Rec) (s : State) : Host.Outcome State Fault Refusal :=
  firing 0xF4 r (fun t => t.sendWord r (s.sysRead s.cur.cluster (tagCtx s.cur.tag) s.cur.bw.toNat)) s

/-- SYSWR (R206): the write is visible when the completion token leaves. -/
def execSyswr (r : Rec) (s : State) : Host.Outcome State Fault Refusal :=
  firing 0xF5 r (fun t =>
    (t.sysWrite s.cur.cluster (tagCtx s.cur.tag) s.cur.bw.toNat s.cur.aw).sendWord r 0) s

/-! ## Traps by software (R207, R208) -/

/-- TRAP (R207). -/
def execTrap (r : Rec) (s : State) : Host.Outcome State Fault Refusal :=
  firing 0xF2 r (fun t => t.trapHere .trap) s

/-- BRK's token is held in its station and counts as in flight (R208). -/
def State.holdBrk (s : State) : State :=
  (s.updRegion s.cur.cluster (fun k =>
    { k with brkHeld := k.brkHeld ++ [(s.cur.station, s.cur.tag, s.cur.aw)] })).flightUp s.cur.cluster s.cur.tag

/-- BRK (R208): with BRKEN.EN 0 it sends a; with EN 1 it traps and holds its token. -/
def execBrk (r : Rec) (s : State) : Host.Outcome State Fault Refusal :=
  firing 0xF3 r (fun t =>
    if (t.region s.cur.cluster).brken.getLsbD 0 then
      t.holdBrk.takeTrap .brk s.cur.cluster s.cur.station s.cur.tag s.cur.aw 0
    else t.sendWord r s.cur.aw) s

/-! ## Clocks, counters and features (R209 to R211) -/

/-- TIME (R209): the reference count, low half to target 0, high half to target 1. -/
def execTime (r : Rec) (s : State) : Host.Outcome State Fault Refusal :=
  firing 0xF6 r (fun t =>
    (t.emit r.t0 (.narrow (BitVec.ofNat 32 t.refCount))).emit r.t1 (.narrow (BitVec.ofNat 32 (t.refCount / 2 ^ 32)))) s

/-- A counter of a region (R210): counter 7 is the fabric cycles of the device. -/
def State.perfCount (s : State) (c sel : Nat) : Word :=
  if sel = 7 then BitVec.ofNat 32 s.cycle else (s.region c).perf.getD sel 0

/-- PERF (R210). -/
def execPerf (r : Rec) (s : State) : Host.Outcome State Fault Refusal :=
  firing 0xF7 r (fun t => t.sendWord r (t.perfCount s.cur.cluster s.cur.bw.toNat)) s

/-- Whether a feature bit stands in the device's mask (R125). -/
def deviceHas (bit : Nat) : Bool := decide (bit < 12)

/-- The state of a feature bit in a region (R211). -/
def State.featState (s : State) (c bit : Nat) : Word :=
  if deviceHas bit then 1 else if (s.region c).features.contains bit then 2 else 0

/-- FEAT (R211). -/
def execFeat (r : Rec) (s : State) : Host.Outcome State Fault Refusal :=
  firing 0xF8 r (fun t => t.sendWord r (t.featState s.cur.cluster s.cur.bw.toNat)) s

/-! ## DRAIN (R212) -/

/-- A wave that is open closes by force: what it has in the store buffer is passed over, and the thread's later operations go on
(R212, R224). -/
def State.forceClose (s : State) (c blk : Nat) (g : Word) : State :=
  match s.wave? c blk g with
  | some w =>
    if w.isOpen then
      let s := s.updWave c blk g (fun w => { w with isOpen := false, finished := true, drained := true })
      (((s.passOver c blk g).endWaits c).pumpBuffer c).dueEvent .waveCloseQuiescence { cluster := c, index := blk, tag := g }
    else s
  | none => s

/-- DRAIN (R212). -/
def execDrain (r : Rec) (s : State) : Host.Outcome State Fault Refusal :=
  firing 0xF9 r (fun t =>
    (t.forceClose s.cur.cluster (s.cur.bw.extractLsb' 0 8).toNat s.cur.tag).send r s.cur.a) s

end Sys2Proof.Machine
end

