-- ==== Sys2Proof/Machine/Links.lean ====
section
/-! DEFINITION. The links (R430 to R441): the device register block as the host reads and writes it, page hand-over, coherent
requests of the host, what other devices ask over Span, its ports, and soft errors that no access met (R329, R376). -/

namespace Sys2Proof.Machine

open Sys2Proof

/-! ## The device register block (R398, R399, R430, R446, R450) -/

/-- The number of a boot state (R446). -/
def BootState.code : BootState → Nat
  | .rom => 0 | .imageCheck => 1 | .training => 2 | .ready => 3 | .recovery => 4

/-- BOOTSTAT as it reads (R446). -/
def State.bootstat (s : State) : Word :=
  BitVec.ofNat 32 (s.toll.cause.toNat * 256 + s.toll.fused.toNat * 16 + s.toll.boot.code)

/-- The low or high half of an eight-byte register. -/
def halfOf (v : Dword) (high : Bool) : Word := if high then v.extractLsb' 32 32 else v.extractLsb' 0 32

/-- An eight-byte register with one half written. -/
def withHalf (v : Dword) (high : Bool) (w : Word) : Dword :=
  if high then w ++ v.extractLsb' 0 32 else v.extractLsb' 32 32 ++ w

/-- The word of a queue's block at an offset of it (R399); 0 where it is reserved or write-only. -/
def Queue.word (k : Queue) (q off : Nat) : Word :=
  if 0x40 ≤ off ∧ off < 0x80 then (k.hint >>> (8 * (off - 0x40))).setWidth 32
  else match off with
    | 0x00 => k.qctl ||| (if q < 4 then 0x40000000#32 else 0)
    | 0x04 => k.wdog
    | 0x08 => halfOf k.root false
    | 0x0C => halfOf k.root true
    | 0x10 => halfOf k.evbase false
    | 0x14 => halfOf k.evbase true
    | 0x18 => k.evhead
    | 0x1C => k.evtail
    | 0x20 => halfOf k.pseq false
    | 0x24 => halfOf k.pseq true
    | 0x28 => halfOf k.cseq false
    | 0x2C => halfOf k.cseq true
    | 0x30 => k.l1quota
    | 0x34 => k.vquota
    | 0x38 => if q < 4 then halfOf k.winbase false else 0
    | 0x3C => if q < 4 then halfOf k.winbase true else 0
    | _ => 0

/-- A queue's block with a word written that has no action of its own (R399). -/
def Queue.setWord (k : Queue) (q off : Nat) (v : Word) : Queue :=
  match off with
  | 0x04 => { k with wdog := v }
  | 0x08 => { k with root := withHalf k.root false v }
  | 0x0C => { k with root := withHalf k.root true v }
  | 0x10 => { k with evbase := withHalf k.evbase false v }
  | 0x14 => { k with evbase := withHalf k.evbase true v }
  | 0x30 => { k with l1quota := v }
  | 0x34 => { k with vquota := v }
  | 0x38 => if q < 4 then { k with winbase := withHalf k.winbase false v } else k
  | 0x3C => if q < 4 then { k with winbase := withHalf k.winbase true v } else k
  | _ => k

/-- Word n of the feature mask: bit b is feature 32n + b (R124, R125). -/
def featureWord (n : Nat) : Word :=
  BitVec.ofNat 32 (((List.range 32).map (fun b => if deviceHas (32 * n + b) then 2 ^ b else 0)).sum)

/-- The register word at a word-aligned offset while the device is READY; 0 where it is reserved or write-only. -/
def State.regWord (s : State) (w : Nat) : Word :=
  let r := s.regs
  if 0x4000 ≤ w ∧ w < 0x6000 then r.route.getD ((w - 0x4000) / 2 + 1) 0 ++ r.route.getD ((w - 0x4000) / 2) 0
  else if 0x10000 ≤ w ∧ w < 0x14000 then (s.queue ((w - 0x10000) / 256)).word ((w - 0x10000) / 256) (w % 256)
  else if 0x100 ≤ w ∧ w < 0x140 then featureWord ((w - 0x100) / 4)
  else match w with
    | 0x00 => r.dmode
    | 0x08 => halfOf r.fpbase false
    | 0x0C => halfOf r.fpbase true
    | 0x10 => r.fpprod
    | 0x14 => r.fpcons
    | 0x18 => halfOf r.svbase false
    | 0x1C => halfOf r.svbase true
    | 0x20 => r.svprod
    | 0x24 => r.svcons
    | 0x40 => r.devid
    | 0x48 => halfOf r.flagbase false
    | 0x4C => halfOf r.flagbase true
    | 0x50 => halfOf r.egbase false
    | 0x54 => halfOf r.egbase true
    | 0x58 => r.egctl
    | 0x5C => r.egprod
    | 0x60 => r.egcons
    | 0x68 => halfOf r.improot false
    | 0x6C => halfOf r.improot true
    | 0x70 => halfOf r.hopage false
    | 0x74 => halfOf r.hopage true
    | 0x78 => r.hoctl
    | 0x7C => r.hostat
    | 0x80 => halfOf r.honew false
    | 0x84 => halfOf r.honew true
    | 0x90 => s.bootstat
    | _ => 0

/-- What the host reads at a word of the block (R445, R450): nothing but ones before READY, but for the recovery
registers, of which the write-only ones read as zero (R8). -/
def State.readReg (s : State) (w : Nat) : Word :=
  match s.toll.boot with
  | .ready => s.regWord w
  | .recovery =>
    (match w with
     | 0x90 => s.bootstat
     | 0xA4 => s.toll.rcvstat
     | 0xA8 => s.toll.rcvlen
     | _ => if w = 0xA0 ∨ (0x1000000 ≤ w ∧ w < 0x2000000) then 0 else 0xFFFFFFFF#32)
  | _ => 0xFFFFFFFF#32

/-- EGCTL as it is stored: EGLOG2 from 4 to 12 (R430). -/
def egctlStored (v : Word) : Word := BitVec.ofNat 32 (max 4 (min 12 (v.toNat % 16)))

/-- The device's own registers with a word written that has no action of its own (R398, R430). -/
def DevRegs.setWord (r : DevRegs) (w : Nat) (v : Word) : DevRegs :=
  if 0x4000 ≤ w ∧ w < 0x6000 then
    { r with route := (r.route.set ((w - 0x4000) / 2) (v.extractLsb' 0 16)).set ((w - 0x4000) / 2 + 1) (v.extractLsb' 16 16) }
  else match w with
    | 0x00 => { r with dmode := v &&& 0xFFFF0006#32 }
    | 0x08 => { r with fpbase := withHalf r.fpbase false v }
    | 0x0C => { r with fpbase := withHalf r.fpbase true v }
    | 0x18 => { r with svbase := withHalf r.svbase false v }
    | 0x1C => { r with svbase := withHalf r.svbase true v }
    | 0x40 => { r with devid := v &&& 0xFFF#32 }
    | 0x48 => { r with flagbase := withHalf r.flagbase false v }
    | 0x4C => { r with flagbase := withHalf r.flagbase true v }
    | 0x50 => { r with egbase := withHalf r.egbase false v }
    | 0x54 => { r with egbase := withHalf r.egbase true v }
    | 0x58 => { r with egctl := egctlStored v }
    | 0x68 => { r with improot := withHalf r.improot false v }
    | 0x6C => { r with improot := withHalf r.improot true v }
    | 0x70 => { r with hopage := withHalf r.hopage false v }
    | 0x74 => { r with hopage := withHalf r.hopage true v }
    | 0x78 => { r with hoctl := v &&& 0xC0000FFF#32 }
    | _ => r

/-- The words of the block whose write has an action of its own. -/
def isActionWord (w : Nat) : Bool :=
  [0x10, 0x20, 0x60, 0x78, 0x90, 0xA0].contains w
    || (decide (0x10000 ≤ w) && decide (w < 0x14000) && (w % 256 == 0 || w % 256 == 0x18))

/-- The bytes of the block that are written one by one: hint slots, packet apertures and ingress apertures. -/
def isByteArea (a : Nat) : Bool :=
  (decide (0x10000 ≤ a) && decide (a < 0x14000) && decide (0x40 ≤ a % 256) && decide (a % 256 < 0xC0))
    || (decide (0x20000 ≤ a) && decide (a < 0x22000))

/-- The word-aligned offsets that a write meets. -/
def blockWords (off n : Nat) : List Nat := (List.range ((off + n + 3) / 4 - off / 4)).map (fun i => 4 * (off / 4 + i))

/-- A word with the bytes of a write in it. -/
def mergeWord (old : Word) (w off : Nat) (data : List Byte) : Word :=
  BitVec.ofNat 32 (natOfBytes ((List.range 4).map (fun i =>
    if off ≤ w + i then (data[w + i - off]?).getD (old.extractLsb' (8 * i) 8) else old.extractLsb' (8 * i) 8)))

/-- One word of a write while the device is READY: stored, or left to the write that has the action. -/
def State.writeWord (s : State) (w off : Nat) (data : List Byte) : State × List Activity :=
  let old := if w = 0x90 ∨ w = 0xA0 then 0 else s.regWord w
  let v := mergeWord old w off data
  let exact := off == w && data.length == 4
  if isByteArea w then (s, [])
  else if isActionWord w ∧ !exact then (s, [.write w (bytesOfNat 4 v.toNat)])
  else if 0x10000 ≤ w ∧ w < 0x14000 then
    let q := (w - 0x10000) / 256
    let s := s.updQueue q (fun k => k.setWord q (w % 256) v)
    (if (w % 256 = 0x38 ∨ w % 256 = 0x3C) ∧ q < 4 then s.dueOnce (.event .launchWindowSeal { queue := q }) else s, [])
  else ({ s with regs := s.regs.setWord w v }, [])

/-- One byte of a write to a hint slot, a packet aperture or an ingress aperture (R397, R402, R433). -/
def State.writeByte (s : State) (a : Nat) (b : Byte) : State × List Activity :=
  if a < 0x14000 then
    let q := (a - 0x10000) / 256
    let o := a % 256
    if o < 0x80 then (s, [.write a [b]])
    else if q < 4 then (s, [])
    else if o = 0xBF then (s, [.write a [b]])
    else (s.updQueue q (fun k => { k with aperture := putSlot k.aperture (o - 0x80) [b] }), [])
  else
    let n := (a - 0x20000) / 16
    let i := a % 16
    let old : BitVec 128 := s.ingressAp.getD n 0
    let new : BitVec 128 := (old &&& ~~~((0xFF : BitVec 128) <<< (8 * i))) ||| (b.zeroExtend 128 <<< (8 * i))
    let s := { s with ingressAp := s.ingressAp.set n new }
    (s, if i = 15 then [.write (0x20000 + 16 * n) (bytesOfNat 16 new.toNat)] else [])

/-- A write that spans several parts of the block: each word, and each byte of the byte areas, in rising order. -/
def State.writeBlock (s : State) (off : Nat) (data : List Byte) : State :=
  let x := (blockWords off data.length).foldl (fun (p : State × List Activity) w =>
    let r := p.1.writeWord w off data
    (r.1, p.2 ++ r.2)) (s, [])
  let y := (data.zip (List.range data.length)).foldl (fun (p : State × List Activity) (e : Byte × Nat) =>
    if isByteArea (off + e.2) then
      let r := p.1.writeByte (off + e.2) e.1
      (r.1, p.2 ++ r.2)
    else p) x
  { y.1 with agenda := y.2 ++ y.1.agenda, picks := List.replicate y.2.length 0 ++ y.1.picks }

/-- A write in RECOVERY (R450): the staging area, RCVLEN, and the word of RCVCTL where the write meets others too; every other write is
ignored. -/
def State.writeRecovery (s : State) (off : Nat) (data : List Byte) : State :=
  let n := min data.length (0x2000000 - off)
  if 0x1000000 ≤ off then
    { s with toll := { s.toll with staging := s.toll.staging.putRange (off - 0x1000000) (data.take n) } }
  else
    let s := if off ≤ 0xAB ∧ 0xA8 < off + data.length then
      { s with toll := { s.toll with rcvlen := mergeWord s.toll.rcvlen 0xA8 off data } } else s
    if off ≤ 0xA3 ∧ 0xA0 < off + data.length ∧ !(off == 0xA0 && data.length == 4) then
      { s with agenda := .write 0xA0 (bytesOfNat 4 (mergeWord 0 0xA0 off data).toNat) :: s.agenda, picks := 0 :: s.picks }
    else s

/-- REGISTER_WRITE (R398, R399, R430, R450): a register that the write alone changes takes its bytes; reserved and read-only bits keep
theirs. Before READY a write is ignored (R445). -/
def execRegisterWrite (off : Nat) (data : List Byte) (s : State) : Host.Outcome State Fault Refusal :=
  done (
    if s.takesWrites then s.writeBlock off data
    else if s.toll.boot = .recovery then s.writeRecovery off data
    else s)

/-- FPPROD_WRITE (R398): the host has written entries of the free-page ring. -/
def execFpprodWrite (v : Word) (s : State) : Host.Outcome State Fault Refusal :=
  done (if s.takesWrites then { s with regs := { s.regs with fpprod := v } } else s)

/-- SVPROD_WRITE (R398, R427): the host has written entries of the free save-area ring. -/
def execSvprodWrite (v : Word) (s : State) : Host.Outcome State Fault Refusal :=
  done (if s.takesWrites then { s with regs := { s.regs with svprod := v } }.dispatch else s)

/-- EGCONS_WRITE (R434): the host has consumed records of the egress ring. -/
def execEgconsWrite (v : Word) (s : State) : Host.Outcome State Fault Refusal :=
  done (if s.takesWrites then { s with regs := { s.regs with egcons := v } } else s)

/-! ## Page hand-over (R338, R440, R441) -/

/-- The requests that wait at a home in a page, for units of a counter or for a phase, go back to translation (R441); units set aside for
them pass on (R371). -/
def State.unwait (s : State) (page : Nat) : State :=
  let mine := fun (line : Nat) => line / 512 == page
  let lines := (s.quarry.filter (fun e => mine e.1)).map (fun e => e.1)
  let ids := ((s.quarry.filter (fun e => mine e.1)).map (fun e =>
      e.2.waiters.map (fun w => w.1) ++ (e.2.arrived.map (fun a => a.id)).filter (fun id => id != 0))).flatten
    ++ (s.pwaits.filter (fun p => mine p.1)).map (fun p => p.2.1)
  let s := { s with
    quarry := s.quarry.map (fun (e : Nat × QuarryHome) => (e.1, if mine e.1 then
      { e.2 with waiters := [], arrived := [], recalled := none, awaited := [], writing := none } else e.2))
    pwaits := s.pwaits.filter (fun p => !mine p.1) }
  let s := lines.foldl State.settleLine s
  ids.foldl (fun s id => (s.updReq id (fun q => { q with stage := .issued })).retryReq id) s

/-- The speculations that have read a line of a page, or written one, or have a leaf there to mark, are discarded: no home of this device
keeps the watch of its lines any more, or could publish them with the others at one instant (R386, R393, R394, log 114). -/
def State.endWatch (s : State) (page : Nat) : State :=
  s.ferry.foldl (fun s e =>
    match e.2.spec with
    | some x =>
      if x.reads.any (fun l => l / 512 == page) || x.landing.any (fun l => l.1 / 512 == page) || x.dirty.any (fun a => a / 65536 == page)
      then s.discardSpec e.1 false else s
    | none => s) s

/-- Every line of a page is recalled from the L1s, L2s and vaults (R338 step 2). -/
def State.recallPage (s : State) (page : Nat) : State :=
  let s := s.dropPage page
  match s.residentSlot page with
  | some (c, n) => s.emptySlot c n
  | none => s

/-- The line monitors of the launch windows look again (R402). -/
def State.lookWindows (s : State) : State :=
  (List.range 4).foldl (fun s q => s.dueOnce (.event .launchWindowSeal { queue := q })) s

/-- HANDOVER_GO (R440): a GO while HOSTAT is not IDLE is ignored; a page that is misaligned or not local, or an unknown borrower, sets
ERROR; otherwise the page is recalled and its 64 KiB leaves for the borrower. -/
def execHandoverGo (v : Word) (s : State) : Host.Outcome State Fault Refusal :=
  let pa := s.regs.hopage.toNat
  let d := (v.extractLsb' 0 12).toNat
  done (
    if !s.takesWrites || s.regs.hostat != 0 then s
    else
      let s := { s with regs := { s.regs with hoctl := v &&& 0xC0000FFF#32 } }
      if pa % 65536 ≠ 0 ∨ 2 ^ 39 ≤ pa ∨ s.unknownDevice d then { s with regs := { s.regs with hostat := 3 } }
      else
        let s := { s with regs := { s.regs with hostat := 1 }, lentPage := some (pa / 65536), lentTo := d }.lookWindows
        let s := ((s.recallPage (pa / 65536)).unwait (pa / 65536)).endWatch (pa / 65536)
        s.answer pa (s.mem.range pa 65536) 0)

/-- The page is in hand-over no more: the device's own accesses to it are performed here again, and what waits on its bytes looks at them anew
(R440, R441). -/
def State.handoverOver (s : State) : State :=
  let page := s.lentPage.getD 0
  let s := { s.forgetFar with lentPage := none }
  let s := { s with queues := s.queues.map (fun (e : Nat × Queue) =>
    (e.1, if e.2.waiting.any (fun l => l / 512 == page) then { e.2 with waiting := none } else e.2)) }
  s.drainAll.lookWindows.dispatch

/-- HANDOVER_END (R440): in FORWARDING, forwarding stops and HOSTAT returns to IDLE. -/
def execHandoverEnd (v : Word) (s : State) : Host.Outcome State Fault Refusal :=
  done (
    if !s.takesWrites then s
    else
      let s := { s with regs := { s.regs with hoctl := v &&& 0xC0000FFF#32 } }
      if s.regs.hostat = 2 then { s with regs := { s.regs with hostat := 0 } }.handoverOver else s)

/-- HANDOVER_CLEAR (R440): 0 in HOCTL returns ERROR to IDLE. -/
def execHandoverClear (s : State) : Host.Outcome State Fault Refusal :=
  done (
    if !s.takesWrites then s
    else
      let s := { s with regs := { s.regs with hoctl := 0 } }
      if s.regs.hostat = 3 then { s with regs := { s.regs with hostat := 0 } } else s)

/-- The writes and marks of the device's own that wait for the page in hand-over, or are on their way to its new home. -/
def State.heldOwn (s : State) : List MemReq := s.reqs.filter (fun q => q.cluster == 64 && q.station == 64 && s.inLentPage q.va.toNat)

/-- A write or mark of the device's own that has waited is performed here after all (R440). -/
def State.performOwn (s : State) (q : MemReq) : State :=
  let t := { s with spanReqs := s.spanReqs.filter (fun r => r.id != q.id) }.dropReq q.id
  match q.kind with
  | .atomic _ =>
    if t.readPhysNat q.va.toNat 4 = q.b.toNat then t.writePhys q.va.toNat (bytesOfNat 4 q.c.toNat) else t
  | _ => t.writePhys q.va.toNat q.data

/-- The borrower has taken no page: ERROR, and the lender performs the waiting accesses itself (R440). -/
def State.handoverFailed (s : State) : State :=
  let held := s.heldOwn
  held.foldl State.performOwn { s with regs := { s.regs with hostat := 3 } }.handoverOver

/-- The page stands at the borrower: HONEW names it, and waiting accesses are forwarded, events that wait for their ring among them (R338,
R440). -/
def State.handoverDone (s : State) (new : Nat) : State :=
  let ids := s.heldOwn.map (fun q => q.id)
  { s with regs := { s.regs with hostat := 2, honew := BitVec.ofNat 64 new }
           spanReqs := s.spanReqs.map (fun (e : SpanReq) =>
             if ids.contains e.id then { e with addr := new + e.addr % 65536 } else e) }.drainAll

/-- The borrower's side: a page of its own free-page ring takes the 64 KiB, and its address is the answer; with the ring empty, a
refusal (R440). -/
def State.borrowPage (s : State) (id : Nat) (data : List Byte) : State :=
  if s.hasFreePage then
    let page := s.nextFreePage
    let s := { s with regs := { s.regs with fpcons := s.regs.fpcons + 1 } }
    let s := s.recallPage (page / 65536)
    let m := s.mem.filter (fun e => decide (e.1 < page) || decide (page + 65536 ≤ e.1))
    { s with mem := Bytes.putRange m page (data.take 65536) }.answer id (bytesOfNat 8 page) 0
  else s.answer id [] 1

/-- HANDOVER_PAGE_ARRIVAL (R440): at the borrower the page arrives; at the lender (`hasC`) the borrower's answer does, the page's new
address or none. -/
def execHandoverPageArrival (s : State) : Host.Outcome State Fault Refusal :=
  let x := s.cur
  done (
    if !x.hasC then
      (if s.hasFreePage && !s.linesHere [s.freePageAt / 128] then
         (s.askFar [s.freePageAt / 128]).dueEvent .handoverPageArrival x
       else (s.borrowPage x.id x.access.data).useFar [s.freePageAt / 128])
    else if !s.moving then s
    else match x.amount with
      | some new => s.handoverDone new
      | none => s.handoverFailed)

/-! ## Requests of the host (R431) -/

/-- An access from no cluster goes on to another device; its answer goes back to who asked (R441): another device (`from_` 65) or the host
(66), whose writes to memory come before its later writes to registers (R403). A copy element carries its channel, and the number of words
that are counted there (R437). -/
def State.passOn (s : State) (id from_ : Nat) (write : Bool) (pa d : Nat) (data : List Byte) (size : Nat) (channel : Word)
    (words : Nat := 0) : State :=
  let f := s.fresh
  let q : MemReq := { id := f.1, cluster := 64, station := from_, tag := 0, kind := if write then .store else .load,
                      va := BitVec.ofNat 64 pa, size := size, data := data, aux := BitVec.ofNat 64 id, b := channel, c := BitVec.ofNat 32 words,
                      stage := .away }
  { f.2 with reqs := f.2.reqs ++ [q] }.toSpan f.1 d pa

/-- An access from outside meets an uncorrectable soft error in a line: the tollhouse hears of it (R329). -/
def State.meetOutside (s : State) (line : Nat) : State :=
  if s.poisoned.contains line then
    ((s.unpoison line).loseCounter line).logError (s.errorAt line)
  else s

/-- A request of the host waits, where it stood among what the host has sent (R432). -/
def State.hostWaits (s : State) (x : Site) : State := s.backTo x.index (.event .hostCoherentRequest x)

/-- Whether an earlier request of the host through the port of a line has gone on to another device and has no answer yet: requests through one
port are performed in the order sent (R432). -/
def State.hostBehind (s : State) (line : Nat) : Bool :=
  s.reqs.any (fun q => q.cluster == 64 && q.station == 66 && q.va.toNat / 128 % 2 == line % 2)

/-- A read or write by the host of local HBM4, or of host memory, is performed: a write after the recall of a counter's slabs (R363). Of its
own memory the host is the home, and no holder in a directory (R431). -/
def State.hostAccess (s : State) (x : Site) : State :=
  let h := x.host
  let line := h.addr / 128
  if h.write && s.slabsOut line then (s.recallFor line 0).hostWaits x
  else
    let s := s.meetOutside line
    let s := if s.offCache line || isHostLine line then s
      else
        let alone := (s.dirOf line).dies.all (fun d => d == .i)
        s.updDir line (fun e =>
          { e with host := if h.write || e.host == .m then .m else if alone then .e else .s })
    let s := s.completeHome line
    if h.write then (s.writePhys h.addr h.data).answer x.id [] 0
    else s.answer x.id (wideBytes (s.lineNow line)) 0

/-- Whether the home of a line has granted a request of the host its turn (R333). -/
def State.hostGranted (s : State) (line id : Nat) : Bool :=
  match (s.dir.getD line {}).txn with
  | some t => t.msg.src == .host && t.phase == .grant && t.site.id == id
  | none => false

/-- Whether a request of the host waits in the order of its line, or has its turn there. -/
def State.hostQueued (s : State) (line id : Nat) : Bool :=
  let e := s.dir.getD line {}
  e.waiting.any (fun w => w.instr == .hostCoherentRequest && w.site.id == id)
    || (match e.txn with | some t => t.msg.src == .host && t.site.id == id | none => false)

/-- HOST_COHERENT_REQUEST (R431): a read or write by the host, of local HBM4 or of a line of host memory, takes its turn in the line's
directory, which for host memory the standing die keeps, and is performed after the dies that hold the line have shared or dropped their
copies. One for a page in hand-over waits and is forwarded (R441). -/
def execHostCoherentRequest (s : State) : Host.Outcome State Fault Refusal :=
  let x := s.cur
  let h := x.host
  let line := h.addr / 128
  let rank := rankOf (.home (homeOf line)) .host line
  done (
    if !s.takesWrites || !s.within h.addr || decide (128 < h.addr % 128 + h.data.length) then s
    else if s.hostBehind line then s.hostWaits x
    else if s.inLentPage h.addr then
      let s := if s.hostGranted line x.id then s.completeHome line else s
      (if s.moving then s.hostWaits { x with hasC := false }
       else s.passOn x.id 66 h.write (s.newHome h.addr) s.borrower h.data 128 0)
    else if (s.residentSlot (line / 512)).isSome || s.hostGranted line x.id then s.hostAccess x
    else if s.hostQueued line x.id then (s.pumpHome line).hostWaits x
    else (s.homeRequest .hostCoherentRequest line rank x).hostWaits { x with hasC := true })

/-! ## Remote copies (R437) -/

/-- A and D are set in the leaf of an incoming write (R318). -/
def State.markImport (s : State) (t : Translation) : State :=
  let want := t.leaf ||| 0xC0
  if want = t.leaf then s
  else if s.inLentPage t.entry then s.forwardMark t.entry t.leaf want
  else s.writePhys t.entry (bytesOfNat 8 want)

/-- An incoming element is written at its home, here or in the vault that its address names; none where the vault gives ACCESS. A soft error
that its walk or its write meets goes to the tollhouse's log (R329). -/
def State.writeImport (s : State) (va : Nat) (bytes : List Byte) : Option State :=
  match s.importWalk va with
  | .error _ => none
  | .ok t =>
    let s := (t.pa :: t.walked).foldl (fun s a => s.meetOutside (a / 128)) s
    let s := s.markImport t
    if inAperture va then (s.openSlot va (t.pa / 65536)).map (fun s => s.writePhys t.pa bytes)
    else some (s.writePhys t.pa bytes)

/-- The words of an element are counted for its channel (R261, R437). -/
def State.countImport (s : State) (e : RemoteElement) (amount : Option Nat) : State :=
  match e.channel with
  | some ch => s.dueEvent .channelArrival { index := ch.toNat, amount := some (amount.getD (e.data.length / 4)) }
  | none => s

/-- Where a byte at a physical address is to be written at another device: the device, and the address there (R337, R441). -/
def State.farHome (s : State) (pa : Nat) : Option (Nat × Nat) :=
  match s.physPlace pa with
  | .remote d => some (d, pa)
  | _ => if s.inLentPage pa then some (s.borrower, s.newHome pa) else none

/-- One part of an element, within a line, is written where its own address leads: here, or at another device, which counts the words of the
element where it is the last part (R437, R441). The rest of the element follows once the part is written. -/
def State.importPart (s : State) (x : Site) (pa : Nat) (p : Nat × List Byte) (rest : Option (List Byte)) : State :=
  let e := x.remote
  let total := x.amount.getD (e.data.length / 4)
  let next := fun (s : State) (b : List Byte) (id : Nat) => s.dueEvent .remoteCopyElement
    { x with remote := { e with va := p.1 + p.2.length, data := b }, amount := some total, hasC := true, index := id }
  match s.farHome pa, rest with
  | some (d, a), none =>
    s.passOn x.id 65 true a d p.2 p.2.length (match e.channel with | some ch => 0x10000#32 ||| ch.zeroExtend 32 | none => 0) total
  | some (d, a), some b => next (s.passOn x.id 68 true a d p.2 p.2.length 0) b s.nextId
  | none, _ =>
    if s.slabsOut (pa / 128) then (s.recallFor (pa / 128) 0).dueEvent .remoteCopyElement x
    else match s.writeImport p.1 p.2, rest with
      | none, _ => s.answer x.id [] Trap.access.code
      | some s, none => (s.countImport e (some total)).answer x.id [] 0
      | some s, some b => next s b 0

/-- The lines of the tables that an incoming write's address is looked up in. -/
def State.importTables (s : State) (va : Nat) : List Nat :=
  if s.regs.improot = 0 ∨ 2 ^ 52 ≤ va ∨ inReserve va then [] else tableLines (s.walkLines s.regs.improot.toNat va)

/-- REMOTE_COPY_ELEMENT (R437, R441): the element is translated through IMPROOT and written, its words are counted, and the sender has
its answer; a destination that does not translate, or lacks W, is refused before any part is written. Tables in the page in hand-over are
read at its new home (R338), and a soft error in a table goes to the tollhouse's log (R329). -/
def execRemoteCopyElement (s : State) : Host.Outcome State Fault Refusal :=
  let x := s.cur
  let parts := lineParts x.remote.va x.remote.data
  let tables := ((parts.map (fun p => s.importTables p.1)).flatten).eraseDups
  let walks := parts.map (fun p => s.importWalk p.1)
  let fault := walks.findSome? (fun w => match w with | .error c => some c | .ok _ => none)
  let pas := walks.filterMap (fun w => match w with | .ok t => some t.pa | .error _ => none)
  let again := fun (s : State) => s.dueEvent .remoteCopyElement x
  done (
    if !s.takesWrites then s
    else if x.hasC && s.reqs.any (fun q => q.id == x.index) then again s
    else if !s.linesHere tables then again (s.askFar tables)
    else match fault, parts, pas with
      | some c, _, _ => ((tables.foldl State.meetOutside s).useFar tables).answer x.id [] c
      | none, p :: rest, pa :: _ =>
        if s.moving && pas.any s.inLentPage then again s
        else (s.importPart x pa p (rest.head?.map (fun r => r.2))).useFar tables
      | none, _, _ => s.answer x.id [] 0)

/-! ## Accesses of other devices (R337, R436) -/

/-- What an operation of another device does at its home (R237 to R250). -/
def farKind (f : FarOp) : Option ReqKind :=
  match f.op with
  | 0x90 => some (.atomic .add) | 0x91 => some (.atomic .mins) | 0x92 => some (.atomic .maxs) | 0x93 => some (.atomic .minn)
  | 0x94 => some (.atomic .maxn) | 0x95 => some (.atomic .and) | 0x96 => some (.atomic .or) | 0x97 => some (.atomic .xor)
  | 0x98 => some (.atomic .xchg) | 0x99 => some (.atomic .cas) | 0x9A => some (.atomic .fadd)
  | 0xA0 => some (.quarry .init) | 0xA1 => some (.quarry .take) | 0xA2 => some (.quarry .takew) | 0xA3 => some (.quarry .give)
  | 0xA4 => some (.quarry .read) | 0xA5 => some (.quarry .pol)
  | 0xA6 => some (.phaser .reg) | 0xA7 => some (.phaser .sig) | 0xA8 => some (.phaser .wait) | 0xA9 => some (.phaser .drop)
  | 0xAA => some (.phaser .stat)
  | _ => none

/-- The request of an operation of another device: from no cluster, with the number of the access that asks for its answer, and the source
port and request id that it came with (R241). -/
def farReq (id n pa : Nat) (f : FarOp) (kind : ReqKind) : MemReq :=
  { id := n, cluster := 64, station := 65, tag := 0, kind := kind, va := BitVec.ofNat 64 pa, fmt := f.fmt, flags := f.flags, b := f.b,
    c := f.c, aux := BitVec.ofNat 64 id, stage := .away, rid := f.rid, block := f.device * 2048 + f.port }

/-- An operation of another device starts at its home: atomics and phasers act there, and quarry operations take their turn in the
serial order of the counter, home-only (R339). One replayed after a lost reply gets the kept reply, and acts no second time (R241). One for
a page in hand-over goes on to its new home (R441). -/
def State.startFar (s : State) (id pa : Nat) (f : FarOp) : State :=
  match farKind f with
  | none => s.answer id [] 0
  | some kind =>
    let n := s.fresh
    let q := farReq id n.1 pa f kind
    let s := { n.2 with reqs := n.2.reqs ++ [q] }
    let line := pa / 128
    if s.inLentPage pa then s.toSpan q.id s.borrower (s.newHome pa)
    else match s.kept q, kind with
    | some v, _ => s.performed q v
    | none, .quarry op =>
      let k := s.counter line
      if quarryBad op q.b || (op != QuarryOp.init && (!k.init || k.lost)) then s.quarryTrap q
      else s.sendQuarry .quarryHomeRequest { cluster := 64, index := line, id := q.id, go := true }
    | none, _ => s.dueEvent .atomicAtHome { id := q.id, index := pa }

/-- SPAN_ACCESS_REQUEST (R337, R436, R441): an access of another device is performed at this device's home of its line, coherent with
its caches, and answered. An uncorrectable soft error answers MACHINE_CHECK (R329). -/
def execSpanAccessRequest (s : State) : Host.Outcome State Fault Refusal :=
  let x := s.cur
  let a := x.access
  let pa := a.addr % 2 ^ 39
  let line := pa / 128
  done (
    if !s.takesWrites then s
    else if s.inLentPage pa && s.moving then s.backTo x.index (.event .spanAccessRequest x)
    else if s.inLentPage pa && a.far.isNone then s.passOn x.id 65 a.write (s.newHome pa) s.borrower a.data a.size 0
    else if !s.inLentPage pa && s.poisoned.contains line then
      ((s.unpoison line).loseCounter line).answer x.id [] Trap.machineCheck.code
    else if !s.inLentPage pa && spanWrites a && s.slabsOut line then
      (s.recallFor line 0).backTo x.index (.event .spanAccessRequest x)
    else match a.far with
      | some f => s.startFar x.id pa f
      | none =>
        if a.write then (s.writePhys pa a.data).answer x.id [] 0
        else s.answer x.id (s.readPhysBytes pa a.size) 0)

/-! ## Span ports (R435) -/

/-- SPAN_FLIT_REPLAY (R435): the link replays the flit; the transfer arrives whole and once, so nothing else happens. -/
def execSpanFlitReplay (s : State) : Host.Outcome State Fault Refusal := done s

/-- SPAN_PORT_DOWN (R435): the port's traffic moves to the remaining ports; for requests that have none left, the time of 1 ms runs. -/
def execSpanPortDown (s : State) : Host.Outcome State Fault Refusal :=
  let p := s.cur.index
  let t := { s with spanDown := if s.spanDown.contains p then s.spanDown else s.spanDown ++ [p] }
  done ((s.spanReqs.filter (fun e => s.linkUp e && !t.linkUp e)).foldl (fun t e =>
    t.dueEvent .spanRouteTimeout { id := e.id, amount := some t.refCount }) t)

/-- SPAN_PORT_UP (R435): the times of requests that have a live port again end. -/
def execSpanPortUp (s : State) : Host.Outcome State Fault Refusal :=
  let t := { s with spanDown := s.spanDown.filter (fun p => p != s.cur.index) }
  done { t with agenda := t.agenda.filter (fun a => match a with
    | .event .spanRouteTimeout x => !t.spanReqs.any (fun e => e.id == x.id && t.linkUp e)
    | _ => true) }

/-- A request has found no live port for 1 ms: ACCESS at its port, ERROR with FAULT on its copy (R435). A SIGNAL completes with FORMAT,
an access passed on is refused, and a write of the device's own is tried again. -/
def State.routeLost (s : State) (q : MemReq) : State :=
  let s := { s with spanReqs := s.spanReqs.filter (fun e => e.id != q.id) }
  if q.cluster = 64 then
    (if q.station < 64 then (s.dropReq q.id).failAddress q.station { va := q.va.toNat, kind := 1 }
     else if q.station = 64 then s.toSpan q.id s.borrower (s.newHome q.va.toNat)
     else if q.station = 67 then s.dropReq q.id
     else if q.station = 68 then (s.dropReq q.id).failImport q Trap.access.code
     else (s.dropReq q.id).answer q.aux.toNat [] Trap.access.code)
  else match q.kind with
    | .copyWrite k => s.dueEvent .copyFault { cluster := q.cluster, index := k, id := q.id, word := 6 }
    | _ => s.holdReq q .access q.va.toNat false

/-- SPAN_ROUTE_TIMEOUT (R435): `amount` is the reference count at which the request found no live port; it waits 100,000 counts. -/
def execSpanRouteTimeout (s : State) : Host.Outcome State Fault Refusal :=
  let x := s.cur
  done (
    match s.spanReqs.find? (fun e => e.id == x.id), s.req? x.id with
    | some e, some q =>
      if s.linkUp e then s
      else if s.refCount < x.amount.getD 0 + 100000 then s.dueEvent .spanRouteTimeout x
      else s.routeLost q
    | _, _ => s)

/-! ## Soft errors (R329, R376, R453) -/

/-- An error strikes the slab entry of a line in a cluster, and is scrubbed: where no operation has met it by then, the slab is lost and the
error reported (R376). -/
def State.scrubSlab (s : State) (x : Site) (c line : Nat) : State :=
  if x.go then
    (if (s.slab? c line).isSome then
      (s.updRegion c (fun r => { r with struckSlabs := r.struckSlabs.set line x.error })).dueEvent .softErrorScrub { x with go := false }
     else s.logError x.error)
  else if s.slabStruck c line then (s.loseSlab c line).logError x.error
  else s

/-- SOFT_ERROR_SCRUB (R329, R376): an uncorrectable soft error strikes a line, or the slab entry of a line (`go`), and is scrubbed: where no
access has met it by then, it goes to the tollhouse's log, and a counter is LOST. One in a place that is no line of memory is reported at
once. -/
def execSoftErrorScrub (s : State) : Host.Outcome State Fault Refusal :=
  let x := s.cur
  done (
    match x.error.line, x.error.slab with
    | none, _ => s.logError x.error
    | some line, some c => s.scrubSlab x c line
    | some line, none =>
      if x.go then
        { s with poisoned := if s.poisoned.contains line then s.poisoned else s.poisoned ++ [line]
                 errors := if s.poisoned.contains line then s.errors else s.errors.set line x.error }.dueEvent .softErrorScrub
          { x with go := false }
      else if !s.poisoned.contains line then s
      else ((s.unpoison line).loseCounter line).logError x.error)

end Sys2Proof.Machine
end

