-- ==== Sys2Proof/Machine/Logic.lean ====
section
/-! DEFINITION. Logic, shifts and bits (group 0x2: R183 to R186). -/

namespace Sys2Proof.Machine

open Sys2Proof

/-- AND (R183). -/
def execAnd (r : Rec) (s : State) : Host.Outcome State Fault Refusal :=
  resultOf 0x20 r (fun x => lanewise2 (laneType r.fmt) (fun a b => a &&& b) x.aw x.bw) s

/-- OR (R183). -/
def execOr (r : Rec) (s : State) : Host.Outcome State Fault Refusal :=
  resultOf 0x21 r (fun x => lanewise2 (laneType r.fmt) (fun a b => a ||| b) x.aw x.bw) s

/-- XOR (R183). -/
def execXor (r : Rec) (s : State) : Host.Outcome State Fault Refusal :=
  resultOf 0x22 r (fun x => lanewise2 (laneType r.fmt) (fun a b => a ^^^ b) x.aw x.bw) s

/-- ANDN (R183): a and not b. -/
def execAndn (r : Rec) (s : State) : Host.Outcome State Fault Refusal :=
  resultOf 0x23 r (fun x => lanewise2 (laneType r.fmt) (fun a b => a &&& (2 ^ (laneType r.fmt).w - 1 - b)) x.aw x.bw) s

/-- NOT (R183). -/
def execNot (r : Rec) (s : State) : Host.Outcome State Fault Refusal :=
  resultOf 0x24 r (fun x => lanewise1 (laneType r.fmt) (fun a => 2 ^ (laneType r.fmt).w - 1 - a) x.aw) s

/-- SHL (R184). -/
def execShl (r : Rec) (s : State) : Host.Outcome State Fault Refusal :=
  resultOf 0x25 r (fun x => lanewise2 (laneType r.fmt) (fun a b => a * 2 ^ (b % (laneType r.fmt).w)) x.aw x.bw) s

/-- SHR (R184): zeros enter. -/
def execShr (r : Rec) (s : State) : Host.Outcome State Fault Refusal :=
  resultOf 0x26 r (fun x => lanewise2 (laneType r.fmt) (fun a b => a / 2 ^ (b % (laneType r.fmt).w)) x.aw x.bw) s

/-- SAR (R184): bit w−1 enters. -/
def execSar (r : Rec) (s : State) : Host.Outcome State Fault Refusal :=
  resultOf 0x27 r (fun x => lanewise2 (laneType r.fmt) (fun a b => wrapBits (laneType r.fmt).w (toSigned (laneType r.fmt).w a / 2 ^ (b % (laneType r.fmt).w))) x.aw x.bw) s

/-- ROL (R184). -/
def execRol (r : Rec) (s : State) : Host.Outcome State Fault Refusal :=
  resultOf 0x28 r (fun x => lanewise2 (laneType r.fmt) (fun a b => a * 2 ^ (b % (laneType r.fmt).w) + a / 2 ^ ((laneType r.fmt).w - b % (laneType r.fmt).w)) x.aw x.bw) s

/-- ROR (R184). -/
def execRor (r : Rec) (s : State) : Host.Outcome State Fault Refusal :=
  resultOf 0x29 r (fun x => lanewise2 (laneType r.fmt) (fun a b => a / 2 ^ (b % (laneType r.fmt).w) + a * 2 ^ ((laneType r.fmt).w - b % (laneType r.fmt).w)) x.aw x.bw) s

/-- CLZ (R185). -/
def execClz (r : Rec) (s : State) : Host.Outcome State Fault Refusal :=
  resultOf 0x2A r (fun x => lanewise1 (laneType r.fmt) (fun a => leadingZeros (laneType r.fmt).w a) x.aw) s

/-- CTZ (R185). -/
def execCtz (r : Rec) (s : State) : Host.Outcome State Fault Refusal :=
  resultOf 0x2B r (fun x => lanewise1 (laneType r.fmt) (fun a => trailingZeros (laneType r.fmt).w a) x.aw) s

/-- POPC (R185). -/
def execPopc (r : Rec) (s : State) : Host.Outcome State Fault Refusal :=
  resultOf 0x2C r (fun x => lanewise1 (laneType r.fmt) (fun a => onesCount (laneType r.fmt).w a) x.aw) s

/-- BREV (R185). -/
def execBrev (r : Rec) (s : State) : Host.Outcome State Fault Refusal :=
  resultOf 0x2D r (fun x => lanewise1 (laneType r.fmt) (fun a => reverseBits (laneType r.fmt).w a) x.aw) s

/-- pos and len of a bit-field control word, and the field's mask in place (R186). -/
def fieldPos (ctl : Word) : Nat := ctl.toNat % 32

def fieldLen (ctl : Word) : Nat := min (ctl.toNat / 32 % 32 + 1) (32 - fieldPos ctl)

def fieldMask (ctl : Word) : Nat := (2 ^ fieldLen ctl - 1) * 2 ^ fieldPos ctl

/-- The field BFX extracts: sign-extended for .i32 (R186). -/
def bfxWord (natural : Bool) (a ctl : Word) : Word :=
  let f := (a.toNat &&& fieldMask ctl) / 2 ^ fieldPos ctl
  if natural then BitVec.ofNat 32 f else BitVec.ofInt 32 (toSigned (fieldLen ctl) f)

/-- The word BFI makes: a outside the field, b inside it (R186). -/
def bfiWord (a b ctl : Word) : Word :=
  let m := BitVec.ofNat 32 (fieldMask ctl)
  (a &&& ~~~m) ||| ((b <<< fieldPos ctl) &&& m)

/-- BFX (R186). -/
def execBfx (r : Rec) (s : State) : Host.Outcome State Fault Refusal :=
  resultOf 0x2E r (fun x => bfxWord (r.fmt.getLsbD 1) x.aw x.bw) s

/-- BFI (R186). -/
def execBfi (r : Rec) (s : State) : Host.Outcome State Fault Refusal :=
  resultOf 0x2F r (fun x => bfiWord x.aw x.bw x.cw) s

end Sys2Proof.Machine
end

