-- ==== Sys2Proof/Machine/Packed.lean ====
section
/-! DEFINITION. Address, byte and packed operations (group 0x4: R189 to R194). -/

namespace Sys2Proof.Machine

open Sys2Proof

/-- LEA's scale: 4, 2 or 1 bytes by the width (R189). -/
def leaScale (fmt : BitVec 4) : Nat := (laneType fmt).w / 8

/-- The low m bits of a, extended (R190); a itself for m = 0. -/
def extendLow (natural : Bool) (a : Word) (m : Nat) : Word :=
  if m = 0 then a
  else if natural then BitVec.ofNat 32 (a.toNat % 2 ^ m) else BitVec.ofInt 32 (toSigned m (a.toNat % 2 ^ m))

/-- sat16 of a and b as two lanes (R191). -/
def pack2Word (natural : Bool) (a b : Word) : Word :=
  let sat := fun (v : Word) => wrapBits 16 (saturate natural 16 (if natural then v.toNat else v.toInt))
  BitVec.ofNat 32 (joinLanes 16 [sat a, sat b])

/-- sat8 of the 16-bit lanes of a and b as four bytes (R191). -/
def pack4Word (natural : Bool) (a b : Word) : Word :=
  let sat := fun (v : Nat) => wrapBits 8 (saturate natural 8 (if natural then (v : Int) else toSigned 16 v))
  BitVec.ofNat 32 (joinLanes 8 [sat (lane 16 a 0), sat (lane 16 a 1), sat (lane 16 b 0), sat (lane 16 b 1)])

/-- A lane of UNPK in w bits, extended to 2w (R192). -/
def widen (natural : Bool) (w v : Nat) : Nat := if natural then v else wrapBits (2 * w) (toSigned w v)

/-- The half of a that UNPK names, widened (R192). -/
def unpkWord (t : LaneType) (a : Word) (h : Nat) : Word :=
  if t.w = 16 then BitVec.ofNat 32 (widen t.natural 16 (lane 16 a h))
  else BitVec.ofNat 32 (joinLanes 16 [widen t.natural 8 (lane 8 a (2 * h)), widen t.natural 8 (lane 8 a (2 * h + 1))])

/-- The bytes of a as SWZ's control word arranges them (R193). -/
def swzWord (a b : Word) : Word :=
  BitVec.ofNat 32 (joinLanes 8 ((List.range 4).map (fun i =>
    if b.getLsbD (8 + i) then 0 else lane 8 a (b.toNat / 2 ^ (2 * i) % 4))))

/-- A saturating packed operation on lanes read by the type (R194). -/
def packedSat (t : LaneType) (f : Int → Int → Int) (a b : Nat) : Nat :=
  wrapBits t.w (saturate t.natural t.w (f (t.read a) (t.read b)))

/-- LEA (R189): a + b × scale. -/
def execLea (r : Rec) (s : State) : Host.Outcome State Fault Refusal :=
  resultOf 0x40 r (fun x => x.aw + x.bw * BitVec.ofNat 32 (leaScale r.fmt)) s

/-- SEXT (R190). -/
def execSext (r : Rec) (s : State) : Host.Outcome State Fault Refusal :=
  resultOf 0x41 r (fun x => extendLow false x.aw (x.bw.toNat % 32)) s

/-- ZEXT (R190). -/
def execZext (r : Rec) (s : State) : Host.Outcome State Fault Refusal :=
  resultOf 0x42 r (fun x => extendLow true x.aw (x.bw.toNat % 32)) s

/-- PACK2 (R191). -/
def execPack2 (r : Rec) (s : State) : Host.Outcome State Fault Refusal :=
  resultOf 0x43 r (fun x => pack2Word (r.fmt.getLsbD 1) x.aw x.bw) s

/-- PACK4 (R191). -/
def execPack4 (r : Rec) (s : State) : Host.Outcome State Fault Refusal :=
  resultOf 0x44 r (fun x => pack4Word (r.fmt.getLsbD 1) x.aw x.bw) s

/-- UNPK (R192). -/
def execUnpk (r : Rec) (s : State) : Host.Outcome State Fault Refusal :=
  resultOf 0x45 r (fun x => unpkWord (laneType r.fmt) x.aw (x.bw.toNat % 2)) s

/-- SWZ (R193). -/
def execSwz (r : Rec) (s : State) : Host.Outcome State Fault Refusal :=
  resultOf 0x46 r (fun x => swzWord x.aw x.bw) s

/-- ADDP (R194). -/
def execAddp (r : Rec) (s : State) : Host.Outcome State Fault Refusal :=
  resultOf 0x47 r (fun x => lanewise2 (laneType r.fmt) (fun a b => packedSat (laneType r.fmt) (· + ·) a b) x.aw x.bw) s

/-- SUBP (R194). -/
def execSubp (r : Rec) (s : State) : Host.Outcome State Fault Refusal :=
  resultOf 0x48 r (fun x => lanewise2 (laneType r.fmt) (fun a b => packedSat (laneType r.fmt) (· - ·) a b) x.aw x.bw) s

/-- AVGP (R194): floor((x + y + 1) / 2) of the exact sum. -/
def execAvgp (r : Rec) (s : State) : Host.Outcome State Fault Refusal :=
  resultOf 0x49 r (fun x => lanewise2 (laneType r.fmt) (fun a b => wrapBits (laneType r.fmt).w (((laneType r.fmt).read a + (laneType r.fmt).read b + 1) / 2)) x.aw x.bw) s

/-- ABSDP (R194). -/
def execAbsdp (r : Rec) (s : State) : Host.Outcome State Fault Refusal :=
  resultOf 0x4A r (fun x => lanewise2 (laneType r.fmt) (fun a b => ((laneType r.fmt).read a - (laneType r.fmt).read b).natAbs) x.aw x.bw) s

end Sys2Proof.Machine
end

