-- ==== Sys2Proof/Machine/Platform.lean ====
section
/-! DEFINITION. The platform (R340, R341, R443 to R456): retention sleep, power and temperature, bring-up and reset, firmware images,
the management interface with owner keys and attestation, and boundary scan. -/

namespace Sys2Proof.Machine

open Sys2Proof

/-! ## Retention sleep (R340) -/

/-- The queues whose speculation runs in a cluster. -/
def State.specsIn (s : State) (c : Nat) : List Nat :=
  (s.ferry.filter (fun e => match e.2.spec with
    | some x => s.contexts.any (fun k => k.launch == x.launch && k.rect.contains c)
    | none => false)).map (fun e => e.1)

/-- A region falls asleep: wave records, store-buffer entries and matching stores are cleared, and everything else is kept (R340). -/
def Region.sleep (r : Region) : Region := { r with waves := [], buffer := [], store := [], asleep := true }

/-- RETENTION_SLEEP (R340): a quiescent cluster is put to sleep; its speculations are discarded first. One that is not quiescent stays
awake. -/
def execRetentionSleep (s : State) : Host.Outcome State Fault Refusal :=
  let c := s.cur.cluster
  let r := s.region c
  done (
    if r.delivery.isSome || s.frozen c || !r.swept || r.ingress.any (fun e => !e.2.isEmpty)
        || (s.ctxsOf c).any (fun k => !k.spec && !k.killed) then s
    else if !(s.specsIn c).isEmpty then
      ((s.specsIn c).foldl (fun s q => s.discardSpec q false) s).dueEvent .retentionSleep { cluster := c }
    else if !(s.ctxsOf c).isEmpty then s.dueEvent .retentionSleep { cluster := c }
    else s.updRegion c Region.sleep)

/-! ## Firmware images (R447, R448) -/

/-- The reason an image of a size is refused, 0 for a valid one, in the order of R450. -/
def imageReason (fused : BitVec 4) (size : Nat) (img : List Byte) : Nat :=
  let key := (img.drop 0x40).take 32
  if img.take 4 ≠ [0x44#8, 0x58#8, 0x46#8, 0x57#8] ∨ natOfBytes ((img.drop 4).take 4) ≠ size ∨ size < 160 ∨ 2 ^ 24 < size
    ∨ img.length ≠ size then 1
  else if sha512 key ≠ (List.range 64).map (fun i => Config.fusedDigest.extractLsb' (8 * (63 - i)) 8) then 2
  else if !edVerify key (img.take (size - 64)) (img.drop (size - 64)) then 3
  else if (img.getD 8 0).toNat < fused.toNat then 4
  else 0

/-- The image that the flash holds is valid (R448). -/
def Tollhouse.flashValid (t : Tollhouse) : Bool := imageReason t.fused t.flash.length t.flash == 0

/-! ## Bring-up and loss of power (R444 to R446, R449) -/

/-- What stays due when the device's state is lost: what comes from the board, and the return of power. A bring-up in progress ends. -/
def keptActivity (a : Activity) : Bool :=
  match a with
  | .manage _ _ | .scan _ | .board _ => true
  | .event .powerOn x => x.index == 0
  | _ => false

/-- The check or the writing of an image of an update goes on through a device reset: the tollhouse runs on. What the ROM does in RECOVERY ends
with it. -/
def isUpdate (a : Activity) : Bool :=
  match a with
  | .event .stagedImageCheck x => !x.hasC
  | _ => false

/-- The abort completions of the host's transactions in flight (R445): requests that have not been performed, and those that went on to another
device. -/
def State.aborts (s : State) : List (Nat × List Byte × Nat) :=
  s.agenda.filterMap (fun a => match a with
    | .event .hostCoherentRequest x => some (x.id, [], 0xFF)
    | _ => none)
  ++ (s.reqs.filter (fun q => q.cluster == 64 && q.station == 66)).map (fun q => (q.aux.toNat, [], 0xFF))

/-- Every state of the device is lost but host memory, the board's pins, what the device has sent, and what the tollhouse is given to keep. -/
def State.lose (s : State) (toll : Tollhouse) : State :=
  { State.reset with
    ticks := s.ticks, nextId := s.nextId, picks := s.picks, agenda := s.agenda.filter keptActivity,
    mem := s.mem.filter (fun e => e.1 / 2 ^ 48 % 16 == 4), outbox := s.outbox, scan := s.scan, toll := toll }

/-- Whether an image is being written over the flash (R448). -/
def State.flashing (s : State) : Bool :=
  s.agenda.any (fun a => match a with
    | .event .stagedImageCheck x => x.index == 1
    | _ => false)

/-- What the tollhouse keeps without power: fused values, flash, the owner keys with their count, and the cause of the shutdown. -/
def Tollhouse.cold (t : Tollhouse) (boot : BootState) (cause : Byte) (off : Bool) : Tollhouse :=
  { boot := boot, cause := cause, fused := t.fused, flash := t.flash, running := t.running, keys := t.keys, keyseq := t.keyseq,
    strap := t.strap, off := off }

/-- Power is removed: an image that is being written leaves no valid one (R448). -/
def State.powerOff (s : State) (cause : Byte) : State :=
  s.lose ({ s.toll with flash := if s.flashing then [] else s.toll.flash }.cold .rom cause true)

/-- A cold bring-up begins at step 1 (R445). -/
def State.coldStart (s : State) : State :=
  (s.lose (s.toll.cold .rom s.toll.cause false)).dueEvent .powerOn { index := 1 }

/-- A device reset begins at step 2 (R445): the tollhouse runs on, with the update that it checks or writes; the recovery registers are at their
reset values; and the host's transactions in flight end with abort completions. -/
def State.warmStart (s : State) : State :=
  let t := s.lose { s.toll with boot := .imageCheck, cause := 3, quiet := 0, rcvstat := 0, rcvlen := 0, quote := [], resetDue := false }
  { t with agenda := t.agenda ++ s.agenda.filter isUpdate, outbox := s.outbox ++ s.aborts }.dueEvent .deviceReset { index := 2 }

/-- The image check of step 2: a valid image runs, and raises the fused counter to its own; without one the device is in RECOVERY
(R445, R448, R449). -/
def State.checkImage (s : State) : State :=
  let t := s.toll
  if t.flashValid then
    let n := (t.flash.getD 8 0).toNat
    { s with toll := { t with boot := .training, running := t.flash, fused := BitVec.ofNat 4 (max t.fused.toNat (min n 15)) } }
  else { s with toll := { t with boot := .recovery } }

/-- Steps 3 to 5 end: every register is at its reset value, memory is zero, and the device is READY (R445). -/
def State.finishBoot (s : State) : State := { s with toll := { s.toll with boot := .ready } }

/-- POWER_ON (R445): power good starts the bring-up at the ROM; `index` counts its steps. -/
def execPowerOn (s : State) : Host.Outcome State Fault Refusal :=
  done (match s.cur.index with
    | 0 => s.coldStart
    | 1 => { s with toll := { s.toll with boot := .imageCheck } }.dueEvent .powerOn { index := 2 }
    | 2 =>
      let s := s.checkImage
      if s.toll.boot = .training then s.dueEvent .powerOn { index := 3 } else s
    | _ => if s.toll.boot = .training then s.finishBoot else s)

/-- DEVICE_RESET (R445, R446): starts the bring-up at the image check. BOOTSTAT takes it while READY alone (R445, R450); the management
interface (`id` 1) whenever it has power. -/
def execDeviceReset (s : State) : Host.Outcome State Fault Refusal :=
  let x := s.cur
  done (match x.index with
    | 0 => if x.id = 1 ∧ !s.toll.off ∨ s.takesWrites then s.warmStart else s
    | 2 =>
      let s := s.checkImage
      if s.toll.boot = .training then s.dueEvent .deviceReset { index := 3 } else s
    | _ => if s.toll.boot = .training then s.finishBoot else s)

/-- POWER_FAULT (R446, R448): every state is lost and the cause recorded; a loss while an image is being written leaves no valid one. -/
def execPowerFault (s : State) : Host.Outcome State Fault Refusal := done (s.powerOff 2)

/-! ## Power and temperature (R444) -/

/-- A junction in units of 0.125 °C lies above a number of degrees. -/
def above (j : BitVec 16) (degrees : Int) : Bool := decide (degrees * 8 < j.toInt)

/-- A junction lies below a number of degrees. -/
def below (j : BitVec 16) (degrees : Int) : Bool := decide (j.toInt < degrees * 8)

/-- The sum of some power samples, and their average: the 100 ms average once there are 100 of them, and before that the average of those there
are (DESIGN CHOICE, log 127). -/
def powerSum (powers : List Word) : Nat := (powers.map (fun p => p.toNat)).sum

def averagePower (powers : List Word) : Nat := powerSum powers / powers.length

/-- The fabric clock after a sample, and the samples in a row that have been quiet (R444): one step of 125 MHz down, or up after 100
quiet samples. -/
def nextClock (fclk quiet : Nat) (powers : List Word) (p : PowerReading) : Nat × Nat :=
  if 2400000 * powers.length < powerSum powers ∨ p.junction.any (fun j => above j 100) then (max 1000 (fclk - 125), 0)
  else if p.power.toNat < 2280000 ∧ p.junction.all (fun j => below j 95) then
    (if 100 ≤ quiet + 1 then (min 2000 (fclk + 125), 0) else (fclk, quiet + 1))
  else (fclk, 0)

/-- POWER_SAMPLE (R444): a junction above 115 °C trips the package, which loses every state; otherwise the clock follows the sample. -/
def execPowerSample (s : State) : Host.Outcome State Fault Refusal :=
  let p := s.cur.reading
  let powers := (p.power :: s.toll.powers).take 100
  let n := nextClock s.fclk s.toll.quiet powers p
  done (
    if s.toll.off then s
    else if p.junction.any (fun j => above j 115) then s.powerOff 1
    else { s with fclk := n.1, toll := { s.toll with quiet := n.2, reading := some p, powers := powers } })

/-! ## Recovery and updates (R448 to R450, R454) -/

/-- Whether RCVSTAT reads CHECKING or WRITING (R450). -/
def Tollhouse.receiving (t : Tollhouse) : Bool := t.rcvstat == 1 || t.rcvstat == 2

/-- Whether a check of the staging area, or the write that follows it, is in progress. -/
def Tollhouse.checking (t : Tollhouse) : Bool := t.stage == 2 || t.receiving

/-- RCVCTL_GO (R450): in RECOVERY the check of the image in RCVWIN starts; a GO while RCVSTAT reads CHECKING or WRITING is ignored. The image
comes over Towpath port 0, since port 1 is not trained then (R449). -/
def execRcvctlGo (_v : Word) (s : State) : Host.Outcome State Fault Refusal :=
  done (
    if s.toll.boot ≠ .recovery ∨ s.toll.off ∨ s.toll.receiving then s
    else { s with toll := { s.toll with rcvstat := 1 } }.dueEvent .stagedImageCheck
      { amount := some s.toll.rcvlen.toNat, hasC := true })

/-- The check of a staged image ends with a reason, 0 where it is valid: the image, as it was checked, is to be written over the flash, or is
refused (R448, R450). -/
def State.judgeStaged (s : State) (image : List Byte) (rcv : Bool) (reason : Nat) : State :=
  let t := s.toll
  if reason = 0 then
    { s with toll := { t with committed := image.length, rcvstat := if rcv then 2 else t.rcvstat } }.dueEvent
      .stagedImageCheck { index := 1, hasC := rcv, access := { write := true, addr := 0, data := image, size := image.length } }
  else { s with toll := { t with
           stage := if rcv then t.stage else 4, reason := if rcv then t.reason else BitVec.ofNat 8 reason
           rcvstat := if rcv then BitVec.ofNat 32 (reason * 256 + 4) else t.rcvstat } }

/-- The accepted image stands in the flash; in RECOVERY a cold bring-up follows (R449, R450, R454). -/
def State.flashStaged (s : State) (image : List Byte) (rcv : Bool) : State :=
  let t := s.toll
  let s := { s with toll := { t with
    flash := image, stage := if rcv then t.stage else 3, reason := if rcv then t.reason else 0
    rcvstat := if rcv then 3 else t.rcvstat } }
  if t.boot = .recovery then s.dueEvent .stagedImageCheck { index := 2 } else s

/-- STAGED_IMAGE_CHECK (R448): the staged image is checked, and then written over the flash or refused. -/
def execStagedImageCheck (s : State) : Host.Outcome State Fault Refusal :=
  let x := s.cur
  let t := s.toll
  let size : Nat := x.amount.getD 0
  done (
    if t.off then s
    else if x.index = 2 then (if t.boot = .recovery then s.coldStart else s)
    else if x.index = 1 then s.flashStaged x.access.data x.hasC
    else if 2 ^ 24 < size then s.judgeStaged [] x.hasC 1
    else s.judgeStaged (t.staging.range 0 size) x.hasC (imageReason t.fused size (t.staging.range 0 size)))

/-! ## Management (R453 to R455) -/

/-- SMBALERT# is asserted (R454): a log entry newer than the last READLOG of index 0, or a clock held below 2,000 MHz. -/
def State.smbAlert (s : State) : Bool := s.toll.unread || decide (s.fclk < 2000)

/-- The answer of a management command, for the block read of its code: a status byte, and what follows it. Without power there is none. -/
def State.mgmtAnswer (s : State) (code : Byte) (status : Nat) (data : List Byte) : State :=
  if s.toll.off then s else { s with toll := { s.toll with answer := BitVec.ofNat 8 status :: data, answerTo := code } }

/-- A management command with a payload of a fixed length; 0x03 answers any other length. -/
def manage (code : Byte) (n : Nat) (p : List Byte) (f : State → State) (s : State) : Host.Outcome State Fault Refusal :=
  done (if s.toll.off then s else if p.length = n then f s else s.mgmtAnswer code 3 [])

/-- READPWR: busy before the first sample. -/
def execReadpwr (p : List Byte) (s : State) : Host.Outcome State Fault Refusal :=
  manage 0x01 0 p (fun s => match s.toll.reading with
    | some r => s.mgmtAnswer 0x01 0 (bytesOfNat 4 r.power.toNat ++ bytesOfNat 4 (averagePower s.toll.powers)
        ++ ((List.range 4).map (fun i => bytesOfNat 2 (r.junction.getD i 0).toNat)).flatten ++ bytesOfNat 2 s.fclk)
    | none => s.mgmtAnswer 0x01 1 []) s

/-- The bytes of a log entry (R454). -/
def LogEntry.bytes (e : LogEntry) : List Byte := bytesOfNat 8 e.time.toNat ++ [e.die, e.unit, e.kind, 0, 0, 0, 0, 0]

/-- READLOG: entry 0 is the newest; an index past the last entry is refused. -/
def execReadlog (p : List Byte) (s : State) : Host.Outcome State Fault Refusal :=
  manage 0x02 1 p (fun s =>
    let i := (p.getD 0 0).toNat
    let s := if i = 0 then { s with toll := { s.toll with unread := false } } else s
    match s.toll.log[i]? with
    | some e => s.mgmtAnswer 0x02 0 e.bytes
    | none => s.mgmtAnswer 0x02 2 []) s

/-- STAGE: 1 to 240 image bytes go into the staging area. Bytes past its end are refused, and none are taken during a check. -/
def execStage (p : List Byte) (s : State) : Host.Outcome State Fault Refusal :=
  let off := natOfBytes (p.take 4)
  let data := p.drop 4
  done (
    if p.length < 5 ∨ 244 < p.length then s.mgmtAnswer 0x03 3 []
    else if s.toll.off then s
    else if s.toll.checking then s.mgmtAnswer 0x03 1 []
    else if 2 ^ 24 < off + data.length then s.mgmtAnswer 0x03 2 []
    else { s with toll := { s.toll with staging := s.toll.staging.putRange off data, stage := 1 } }.mgmtAnswer 0x03 0 [])

/-- COMMIT: the check of the staged image begins. -/
def execCommit (p : List Byte) (s : State) : Host.Outcome State Fault Refusal :=
  manage 0x04 4 p (fun s =>
    if s.toll.checking then s.mgmtAnswer 0x04 1 []
    else ({ s with toll := { s.toll with stage := 2, committed := natOfBytes p } }.dueEvent .stagedImageCheck
      { amount := some (natOfBytes p) }).mgmtAnswer 0x04 0 []) s

/-- The device serial number as it stands in messages (R452). -/
def serialBytes : List Byte := bytesOfNat 16 Config.serial.toNat

/-- The message that a SETKEY signature covers (R455). -/
def setkeyMessage (p : List Byte) : List Byte := [0x44#8, 0x58#8, 0x53#8, 0x4B#8] ++ serialBytes ++ p.take 0x26

/-- Whether the signature of a SETKEY stands under the table as it is (R451, R455): SIGSLOT names a filled slot whose key verifies
it. -/
def Tollhouse.keySigned (t : Tollhouse) (p : List Byte) : Bool :=
  match t.keys.get? (p.getD 0x26 0).toNat with
  | some key => decide ((p.getD 0x26 0).toNat < 8) && edVerify key (setkeyMessage p) (p.drop 0x27)
  | none => false

/-- SETKEY (R451, R455): refused for another slot or operation; KEYSEQ, then SIGSLOT and SIG are checked. The status for a signed
command while the table is empty is not stated: 0x02 or 0x04. -/
def execSetkey (p : List Byte) (s : State) : Host.Outcome State Fault Refusal :=
  let slot := (p.getD 0 0).toNat
  let op := (p.getD 1 0).toNat
  let t := s.toll
  let accept := fun (s : State) =>
    { s with toll := { t with keys := if op = 1 then t.keys.set slot ((p.drop 2).take 32) else t.keys.erase slot
                              keyseq := t.keyseq + 1 } }.mgmtAnswer 0x05 0 []
  manage 0x05 103 p (fun s =>
    if 7 < slot ∨ 1 < op then s.mgmtAnswer 0x05 2 []
    else if natOfBytes ((p.drop 0x22).take 4) ≠ t.keyseq.toNat + 1 then s.mgmtAnswer 0x05 5 []
    else if t.keys.isEmpty then
      (if p.getD 0x26 0 = 0xFF#8 then accept s
       else s.mgmtAnswer 0x05 (if (Config.freeWord s.ticks).getLsbD 0 then 2 else 4) [])
    else if t.keySigned p then accept s
    else s.mgmtAnswer 0x05 4 []) s

/-- The first 192 bytes of a quote (R452): MAGIC, counter, serial number, the hashes of the running image and of the key slots, nonce
and time. -/
def State.quoteBody (s : State) (nonce : List Byte) : List Byte :=
  let t := s.toll
  let keys := ((List.range 8).map (fun i => (t.keys.get? i).getD (List.replicate 32 0))).flatten
  [0x44#8, 0x58#8, 0x51#8, 0x54#8] ++ bytesOfNat 4 t.fused.toNat ++ serialBytes ++ sha512 (t.running.take (t.running.length - 64))
    ++ sha512 keys ++ nonce ++ bytesOfNat 8 s.refCount

/-- QUOTE (R452): a quote signed with the attestation key, for READQUOTE to read. -/
def execQuote (p : List Byte) (s : State) : Host.Outcome State Fault Refusal :=
  manage 0x06 32 p (fun s =>
    let body := s.quoteBody p
    let quote := body ++ edSign (bytesOfNat 32 Config.attestSeed.toNat) body
    { s with toll := { s.toll with quote := quote } }.mgmtAnswer 0x06 0 []) s

/-- READQUOTE: half 0 or 1 of the last quote. -/
def execReadquote (p : List Byte) (s : State) : Host.Outcome State Fault Refusal :=
  manage 0x07 1 p (fun s =>
    let half := (p.getD 0 0).toNat
    if 1 < half ∨ s.toll.quote = [] then s.mgmtAnswer 0x07 2 []
    else s.mgmtAnswer 0x07 0 ((s.toll.quote.drop (128 * half)).take 128)) s

/-- STATUS. -/
def execStatus (p : List Byte) (s : State) : Host.Outcome State Fault Refusal :=
  manage 0x08 0 p (fun s => s.mgmtAnswer 0x08 0 (bytesOfNat 4 s.bootstat.toNat ++ [s.toll.stage, s.toll.reason])) s

/-- RESET: a device reset begins once the answer has been read. -/
def execMgmtReset (p : List Byte) (s : State) : Host.Outcome State Fault Refusal :=
  manage 0x09 0 p (fun s =>
    let t := s.mgmtAnswer 0x09 0 []
    { t with toll := { t.toll with resetDue := true } }) s

/-- READKEYS. -/
def execReadkeys (p : List Byte) (s : State) : Host.Outcome State Fault Refusal :=
  manage 0x0A 1 p (fun s =>
    let slot := (p.getD 0 0).toNat
    if 7 < slot then s.mgmtAnswer 0x0A 2 []
    else s.mgmtAnswer 0x0A 0 ((s.toll.keys.get? slot).getD (List.replicate 32 0) ++ bytesOfNat 4 s.toll.keyseq.toNat)) s

/-- UNKNOWN_MGMT_CODE (R454). -/
def execUnknownMgmtCode (code : Byte) (s : State) : Host.Outcome State Fault Refusal := done (s.mgmtAnswer code 6 [])

/-! ## Boundary scan (R456) -/

/-- The port selects a register: its instruction code, and the data it shifts out. -/
def State.scanSelect (s : State) (ir : Byte) (data : Word) : State := { s with scan := { s.scan with ir := ir, data := data } }

/-- Whether the boundary register is the one selected: SAMPLE/PRELOAD and EXTEST act while the board holds reset asserted, and are BYPASS as soon as
it does not (R456). -/
def Scan.boundary (k : Scan) : Bool := k.reset && (k.ir == 0x02 || k.ir == 0x03)

/-- BYPASS, and every code without an instruction (R456). -/
def execBypass (ir : Byte) (s : State) : Host.Outcome State Fault Refusal := done (s.scanSelect ir 0)

/-- IDCODE (R456). -/
def execIdcode (s : State) : Host.Outcome State Fault Refusal := done (s.scanSelect 0x01 0x1D880A4F#32)

/-- SAMPLE/PRELOAD (R456): acts only while reset is held, and is BYPASS otherwise. -/
def execSamplePreload (s : State) : Host.Outcome State Fault Refusal := done (s.scanSelect 0x02 0)

/-- EXTEST (R456): acts only while reset is held, and is BYPASS otherwise. -/
def execExtest (s : State) : Host.Outcome State Fault Refusal := done (s.scanSelect 0x03 0)

end Sys2Proof.Machine
end

