-- ==== Sys2Proof/Machine/Sequencer.lean ====
section
/-! DEFINITION. Sequencer instructions (0xEA to 0xEC, R307 to R310) and the steps of an expansion. -/

namespace Sys2Proof.Machine

open Sys2Proof

/-- A word with a field of n bits from a place replaced. -/
def setField (w : Word) (lo n v : Nat) : Word :=
  BitVec.ofNat 32 (w.toNat - w.toNat / 2 ^ lo % 2 ^ n * 2 ^ lo + v % 2 ^ n * 2 ^ lo)

/-- A bit field of a word. -/
def wordField (w : Word) (lo n : Nat) : Nat := w.toNat / 2 ^ lo % 2 ^ n

/-- The token that MOP builds from a template (R307). -/
def mopToken (flags : BitVec 4) (a b : Word) : Word :=
  let t := if flags.getLsbD 0 then setField b 20 6 (wordField a 0 6) else b
  let t := if flags.getLsbD 1 then setField t 14 6 (wordField a 6 6) else t
  let t := if flags.getLsbD 2 then setField t 8 6 (wordField a 12 6) else t
  if flags.getLsbD 3 then setField t 7 1 (wordField a 18 1) else t

/-- MOP (R307). -/
def execMop (r : Rec) (s : State) : Host.Outcome State Fault Refusal :=
  firing 0xEA r (fun t => t.sendWord r (mopToken r.flags s.cur.aw s.cur.bw)) s

/-- Step n of an expansion (R308). -/
def mseqToken (template step : Word) (n : Nat) : Word :=
  let t := setField template 20 6 (wordField template 20 6 + n * wordField step 20 6)
  let t := setField t 14 6 (wordField t 14 6 + n * wordField step 8 6)
  let t := setField t 8 6 (wordField t 8 6 + n * wordField step 14 6)
  if step.getLsbD 26 && decide (0 < n) then setField t 7 1 1 else t

/-- An expansion sends its next step to target 0; after the last it sends COUNT to target 1 and its template is consumed (R308,
R309). -/
def State.expand (s : State) (c : Nat) (e : Expansion) : State :=
  let r := s.recAt c e.station
  let count := wordField e.step 0 8
  let s := s.emitTo c e.station r.t0 (.narrow (mseqToken e.template e.step e.next)) e.tag
  if e.next + 1 < count then
    (s.updRegion c (fun k => { k with
      expansions := k.expansions.map (fun x => if x.id = e.id then { x with next := x.next + 1 } else x) })).dueEvent
      .mseqStep { cluster := c, id := e.id }
  else
    let s := s.updRegion c (fun k => { k with expansions := k.expansions.filter (fun x => x.id != e.id) })
    (s.emitTo c e.station r.t1 (.narrow (BitVec.ofNat 32 count)) e.tag).flightDown c e.tag

/-- MSEQ (R308): a COUNT of 0 or a reserved bit raises ILLEGAL; otherwise the firing sends the first step. -/
def execMseq (r : Rec) (s : State) : Host.Outcome State Fault Refusal :=
  firing 0xEB r (fun t =>
    let x := s.cur
    if wordField x.bw 0 8 = 0 ∨ wordField x.bw 27 5 ≠ 0 then t.trapHere .illegal
    else
      let f := t.fresh
      let e : Expansion := { id := f.1, station := x.station, template := x.aw, step := x.bw, tag := x.tag, next := 0 }
      ((f.2.updRegion x.cluster (fun k => { k with expansions := k.expansions ++ [e] })).flightUp x.cluster x.tag).expand
        x.cluster e) s

/-- MSEQ_STEP (R308, R309): one step is one firing; it waits while the context may not fire (R414) or an earlier step waits for a
credit (R36). -/
def execMseqStep (s : State) : Host.Outcome State Fault Refusal :=
  let x := s.cur
  done (
    match (s.region x.cluster).expansions.find? (fun e => e.id == x.id) with
    | some e =>
      if !s.runs x.cluster e.tag || (s.region x.cluster).blocked.any (fun b => b.1 == e.station) then s.dueEvent .mseqStep x
      else s.expand x.cluster e
    | none => s)

/-- Whether the partner of an MPAIR lies in a rectangle (R310). -/
def partnerInside (k : Rect) (c : Nat) (d : BitVec 8) : Bool :=
  let p := offsetCluster c d
  decide (0 ≤ p.1) && decide (p.1 < 8) && decide (0 ≤ p.2) && decide (p.2 < 8) && k.contains (clusterAt p)

/-- MPAIR (R310): the template becomes an MMAP token that knows its station and offsets. -/
def execMpair (r : Rec) (s : State) : Host.Outcome State Fault Refusal :=
  firing 0xEC r (fun t =>
    let x := s.cur
    let d := r.a.low.extractLsb' 0 8
    if partnerInside (t.rectOf x.cluster x.tag) x.cluster d then
      [r.t0, r.t1].foldl (fun s k =>
        if k.valid then s.sendToken x.station
          { cluster := x.cluster, station := k.addr.toNat, port := k.port, kind := .paired x.station d,
            value := .narrow (setField x.bw 26 6 2), tag := x.tag }
        else s) t
    else t.trapHere .badTarget) s

end Sys2Proof.Machine
end

