-- ==== Sys2Proof/Machine/Vector.lean ====
section
/-! DEFINITION. Vector elements and converters (groups 0xC and 0xD, CVT and CLIP: R269 to R286). -/

namespace Sys2Proof.Machine

open Sys2Proof

/-! ## Lanes of a wide token (R269, R270) -/

/-- The width of a lane of a format (R269). -/
def laneWidth (code : Nat) : Nat := 1024 / lanesOf code

/-- Lane i of a wide value, w bits wide. -/
def wideLane (w : Nat) (v : Wide) (i : Nat) : Nat := (v.extractLsb' (w * i) w).toNat

/-- The wide value of lanes, lane 0 lowest, the rest zero. -/
def wideOfLanes (w : Nat) (lanes : List Nat) : Wide := BitVec.ofNat 1024 (joinLanes w lanes)

/-- The scalar s of R270 as an encoding of the format: binary32 widened for .f64. -/
def scalarBits (code : Nat) (v : Word) : Nat :=
  if code = 3 then roundTo 3 0 false 0 (decodeFloat 0 v.toNat) else v.toNat % 2 ^ laneWidth code

/-- The VE of a station (R75). -/
def veOf (st : Nat) : Nat := (st - 0x1000) / 8

/-- n draws of a register, in order, and the register after them (R144, R145). -/
def drawList : Nat → Word → List Nat × Word
  | 0, s => ([], s)
  | n + 1, s =>
    let t := lfsrStep s
    let rest := drawList n t
    (lfsrDraw t :: rest.1, rest.2)

/-- The draws of a firing with n roundings on the VE in hand, and the state after them: the register steps under .rsr
alone. -/
def State.draws (s : State) (mode n : Nat) : List Nat × State :=
  if mode = 4 then
    let v := veOf s.cur.station
    let d := drawList n ((s.region s.cur.cluster).lfsr.getD v 1)
    (d.1, s.updRegion s.cur.cluster (fun r => { r with lfsr := r.lfsr.set v d.2 }))
  else ([], s)

/-- The lane loop of R271: lane i of the result from draw i and lane i of a, b (or the scalar s when BS = 1) and c. `rounds`
says whether the opcode rounds. -/
def vectorOp (op : Nat) (r : Rec) (rounds : Bool) (f : Nat → Nat → Nat → Nat → Nat) (s : State) :
    Host.Outcome State Fault Refusal :=
  firing op r (fun t =>
    let code := r.fmt.toNat
    let w := laneWidth code
    let n := lanesOf code
    let d := t.draws (if rounds then r.rnd else 0) n
    let x := s.cur
    let sc := scalarBits code x.bw
    let bs := hasBS op && r.flags.getLsbD 0
    let lanes := (List.range n).map (fun i =>
      f (d.1.getD i 0) (wideLane w x.a.bits i) (if bs then sc else wideLane w x.b.bits i) (wideLane w x.c.bits i))
    d.2.send r (.wide (wideOfLanes w lanes))) s

/-- A lane operation on exact values, rounded under the mode (R138, R271). -/
def vectorExact (op : Nat) (r : Rec) (rounds : Bool) (f : Exact → Exact → Exact → Exact) (s : State) :
    Host.Outcome State Fault Refusal :=
  let code := r.fmt.toNat
  vectorOp op r rounds (fun d x y z =>
    roundTo code r.rnd false d (f (decodeFloat code x) (decodeFloat code y) (decodeFloat code z))) s

/-- A firing whose wide result is a function of what is in hand alone. -/
def wideResult (op : Nat) (r : Rec) (f : Site → Wide) (s : State) : Host.Outcome State Fault Refusal :=
  firing op r (fun t => t.send r (.wide (f s.cur))) s

/-- The lanes of a wide value in a format. -/
def lanesIn (code : Nat) (v : Wide) : List Nat := (List.range (lanesOf code)).map (wideLane (laneWidth code) v)

/-! ## Reductions (R151, R152, R275) -/

/-- One combination of VRED and VSCAN: 0 ADD, 1 MIN, 2 MAX. -/
def combine (kind code mode draw x y : Nat) : Nat :=
  let a := decodeFloat code x
  let b := decodeFloat code y
  if kind = 0 then roundTo code mode false draw (a.add mode b)
  else if kind = 1 then roundTo code 0 false 0 (a.minimum b)
  else roundTo code 0 false 0 (a.maximum b)

/-- One level of the tree: neighbours combine, with one draw each. -/
def reduceLevel (f : Nat → Nat → Nat → Nat) : List Nat → List Nat → List Nat
  | _, [] => []
  | _, [x] => [x]
  | d, x :: y :: rest => f (d.headD 0) x y :: reduceLevel f d.tail rest

/-- The tree of R151 over 2^k lanes: k levels. -/
def reduceTree (f : Nat → Nat → Nat → Nat) : Nat → List Nat → List Nat → List Nat
  | 0, _, v => v
  | k + 1, d, v => reduceTree f k (d.drop (v.length / 2)) (reduceLevel f d v)

/-- One level of the scan at a stride (R152). A lane below the stride is copied; so lane 0, which no combination touches, keeps the bits of a
NaN as they are, of which the manual says nothing (R136, R284): DESIGN CHOICE, log 110. -/
def scanLevel (f : Nat → Nat → Nat → Nat) (stride : Nat) (d v : List Nat) : List Nat :=
  (List.range v.length).map (fun i =>
    if i < stride then v.getD i 0 else f (d.getD (i - stride) 0) (v.getD (i - stride) 0) (v.getD i 0))

/-- The scan of R152 over k levels from a stride. -/
def scanLanes (f : Nat → Nat → Nat → Nat) : Nat → Nat → List Nat → List Nat → List Nat
  | 0, _, _, v => v
  | k + 1, stride, d, v => scanLanes f k (2 * stride) (d.drop (v.length - stride)) (scanLevel f stride d v)

/-- The roundings a scan performs: n − stride at each level. -/
def scanCount : Nat → Nat → Nat → Nat
  | 0, _, _ => 0
  | k + 1, n, stride => (n - stride) + scanCount k n (2 * stride)

/-! ## Moves of lanes (R274 to R278, R280) -/

/-- VSHUF's lane i (R277). -/
def shuffleLane (w n mode k : Nat) (a b : Wide) (i : Nat) : Nat :=
  let la := wideLane w a
  let lb := wideLane w b
  match mode with
  | 0 => if i % 2 = 0 then la (i / 2) else lb (i / 2)
  | 1 => if i % 2 = 0 then la (n / 2 + i / 2) else lb (n / 2 + i / 2)
  | 2 => if i < n / 2 then la (2 * i) else lb (2 * (i - n / 2))
  | 3 => if i < n / 2 then la (2 * i + 1) else lb (2 * (i - n / 2) + 1)
  | 4 => if i + k < n then la (i + k) else lb (i + k - n)
  | _ => la (n - 1 - i)

/-- The m of VPACK and VUNPK (R280). -/
def packLanes (r : Rec) : Nat := lanesOf r.fmt.toNat / 2 ^ (r.sel % 4 + 1)

/-! ## Conversions (R279, R281, R283, R285) -/

/-- The elements a conversion from a source to a destination format takes, as source lane numbers (R279). -/
def convertedLanes (src dst part : Nat) : List Nat :=
  (List.range (min (lanesOf src) (lanesOf dst))).map (fun j => part * lanesOf dst + j)

/-- The converted elements with whether each saturated (R147, R279). -/
def convertElements (src dst mode : Nat) (d : List Nat) (v : Wide) (part : Nat) : List (Nat × Bool) :=
  (convertedLanes src dst part).zipIdx.map (fun p =>
    convertTo dst mode (d.getD p.2 0) (decodeFloat src (wideLane (laneWidth src) v p.1)))

/-- The smallest exponent, from e up, whose scale covers |M|, or the last one (R281). -/
def coveringExponent (top bias : Nat) (m : Nat) (k : Int) : Nat → Nat → Nat
  | 0, e => e
  | fuel + 1, e => if magLess top ((e : Int) - bias) m k then coveringExponent top bias m k fuel (e + 1) else e

/-- The scale byte of VQUANT; none for SMODE 0 (R281). -/
def quantScale (dst smode type : Nat) (c : Word) : Option Nat :=
  if smode = 0 then none
  else if smode = 1 then some (c.toNat % 256)
  else
    let top := if dst = 4 then 448 else if dst = 5 then 57344 else [7, 6, 8, 12].getD type 7
    let last := if dst = 6 then 62 else 254
    let bias := if dst = 6 then 32 else 127
    let e :=
      match decodeFloat 0 c.toNat with
      | .nan => last + 1
      | .inf _ => last
      | .fin _ m k _ => coveringExponent top bias m k last 0
    some (if dst = 6 then type * 64 + e else e)

/-- A source value in an FP8 format under a scale byte (R281). -/
def fp8Scaled (dst mode draw : Nat) (scale : Option Nat) (x : Exact) : Nat :=
  match scale with
  | none => (convertTo dst mode draw x).1
  | some e =>
    if e = 0xFF then canonicalNaN dst
    else (convertTo dst mode draw (match x with | .fin n m k st => .fin n m (k - e + 127) st | y => y)).1

/-- The elements and the scale byte of VQUANT (R281). -/
def quantize (dst src mode : Nat) (d : List Nat) (scale : Option Nat) (v : Wide) : Wide × Nat :=
  let xs := (lanesIn src v).map (decodeFloat src)
  let sb := scale.getD 0
  if dst = 6 then
    if xs.any (· == .nan) || sb % 64 == 63 then (0, sb / 64 * 64 + 63)
    else (wideOfLanes 4 (xs.zipIdx.map (fun p => (q4Code mode (d.getD p.2 0) sb p.1).1)), sb)
  else (wideOfLanes 8 (xs.zipIdx.map (fun p => fp8Scaled dst mode (d.getD p.2 0) scale p.1)), sb)

/-- The value of a source element of VDEQ under its scale byte (R141, R142, R283). -/
def dequantElement (src : Nat) (scale : Option Nat) (bits : Nat) : Exact :=
  if src = 6 then q4Value bits (scale.getD 0)
  else match scale with
    | none => decodeFloat src bits
    | some e => e8m0Scaled (decodeFloat src bits) e

/-- The biased exponent MAXEXP of a finite source magnitude (R149). -/
def maxExponent : Exact → Nat
  | .fin _ m e _ =>
    if m = 0 then 0 else (min 0xFE (max 0 ((natBits m : Int) - 1 + e + 127))).toNat
  | _ => 0

/-- The overflow token of CVT, if an element saturated (R149). -/
def overflowToken (xs : List Exact) (saturated : Nat) : Option Word :=
  if saturated = 0 then none
  else
    let inf := xs.any (fun x => match x with | .inf _ => true | _ => false)
    let top := if inf then 0xFF else (xs.map maxExponent).foldl max 0
    let nans := min 255 (xs.filter (fun x => x == .nan)).length
    some (BitVec.ofNat 32 (top * 2 ^ 24 + nans * 2 ^ 16 + saturated))

/-- A lane of CLIP under the bound β, or under a NaN bound (R286). -/
def clipLane (code : Nat) (bound : Option Nat) (v : Nat) : Nat :=
  let x := decodeFloat code v
  if x = .nan then canonicalNaN code
  else match bound with
    | none => v
    | some b =>
      let y := decodeFloat code b
      if y.less false x then b else if x.less false y.negate then signBit code true + b else v

/-- CLIP's bound: |b| in the format, towards zero; none for a NaN (R286). -/
def clipBound (code : Nat) (b : Word) : Option Nat :=
  match decodeFloat 0 (b.toNat % 2 ^ 31) with
  | .nan => none
  | x => some (roundTo code 1 false 0 x)

/-! ## Meanings -/

/-- VADD (R271). -/
def execVadd (r : Rec) (s : State) : Host.Outcome State Fault Refusal :=
  vectorExact 0xC0 r true (fun x y _ => x.add r.rnd y) s

/-- VSUB (R271). -/
def execVsub (r : Rec) (s : State) : Host.Outcome State Fault Refusal :=
  vectorExact 0xC1 r true (fun x y _ => x.add r.rnd y.negate) s

/-- VMUL (R271). -/
def execVmul (r : Rec) (s : State) : Host.Outcome State Fault Refusal :=
  vectorExact 0xC2 r true (fun x y _ => x.mul y) s

/-- VFMA (R138, R271): rounded once. -/
def execVfma (r : Rec) (s : State) : Host.Outcome State Fault Refusal :=
  vectorExact 0xC3 r true (fun x y z => (x.mul y).add r.rnd z) s

/-- VMIN (R139, R271). -/
def execVmin (r : Rec) (s : State) : Host.Outcome State Fault Refusal :=
  vectorExact 0xC4 r false (fun x y _ => x.minimum y) s

/-- VMAX (R139, R271). -/
def execVmax (r : Rec) (s : State) : Host.Outcome State Fault Refusal :=
  vectorExact 0xC5 r false (fun x y _ => x.maximum y) s

/-- VABS (R271). -/
def execVabs (r : Rec) (s : State) : Host.Outcome State Fault Refusal :=
  vectorOp 0xC6 r false (fun _ x _ _ => absBits r.fmt.toNat x) s

/-- VNEG (R271). -/
def execVneg (r : Rec) (s : State) : Host.Outcome State Fault Refusal :=
  vectorOp 0xC7 r false (fun _ x _ _ => negBits r.fmt.toNat x) s

/-- VCMP (R273): all ones where the relation is one of REL. -/
def execVcmp (r : Rec) (s : State) : Host.Outcome State Fault Refusal :=
  vectorOp 0xC8 r false (fun _ x y _ => if (decodeFloat r.fmt.toNat x).relation (decodeFloat r.fmt.toNat y) &&& (r.sel % 16) = 0 then 0
    else 2 ^ laneWidth r.fmt.toNat - 1) s

/-- VSEL (R274): lanes of a where the lane of c is not zero, of b elsewhere. -/
def execVsel (r : Rec) (s : State) : Host.Outcome State Fault Refusal :=
  vectorOp 0xC9 r false (fun _ x y z => if z = 0 then y else x) s

/-- VEXP2 (R272). -/
def execVexp2 (r : Rec) (s : State) : Host.Outcome State Fault Refusal :=
  vectorOp 0xCA r true (fun d x _ _ => exp2Bits r.fmt.toNat r.rnd d x) s

/-- VLOG2 (R272). -/
def execVlog2 (r : Rec) (s : State) : Host.Outcome State Fault Refusal :=
  vectorOp 0xCB r true (fun d x _ _ => log2Bits r.fmt.toNat r.rnd d x) s

/-- VRCP (R196, R272). -/
def execVrcp (r : Rec) (s : State) : Host.Outcome State Fault Refusal :=
  vectorExact 0xCC r true (fun x _ _ => x.recip) s

/-- VRSQ (R196, R272). -/
def execVrsq (r : Rec) (s : State) : Host.Outcome State Fault Refusal :=
  vectorExact 0xCD r true (fun x _ _ => x.rsqrt) s

/-- VTANH (R272). -/
def execVtanh (r : Rec) (s : State) : Host.Outcome State Fault Refusal :=
  vectorOp 0xCE r true (fun d x _ _ => tanhBits r.fmt.toNat r.rnd d x) s

/-- VSIGM (R272). -/
def execVsigm (r : Rec) (s : State) : Host.Outcome State Fault Refusal :=
  vectorOp 0xCF r true (fun d x _ _ => sigmBits r.fmt.toNat r.rnd d x) s

/-- VRED (R151, R275): lane 0 holds the result, the other lanes are +0. -/
def execVred (r : Rec) (s : State) : Host.Outcome State Fault Refusal :=
  firing 0xD0 r (fun t =>
    let code := r.fmt.toNat
    let n := lanesOf code
    let d := t.draws (if r.sel % 4 = 0 then r.rnd else 0) (n - 1)
    let v := reduceTree (combine (r.sel % 4) code r.rnd) (Nat.log2 n) d.1 (lanesIn code s.cur.a.bits)
    d.2.send r (.wide (wideOfLanes (laneWidth code) (v.take 1)))) s

/-- VSCAN (R152, R275): the inclusive scan. -/
def execVscan (r : Rec) (s : State) : Host.Outcome State Fault Refusal :=
  firing 0xD1 r (fun t =>
    let code := r.fmt.toNat
    let n := lanesOf code
    let d := t.draws (if r.sel % 4 = 0 then r.rnd else 0) (scanCount (Nat.log2 n) n 1)
    let v := scanLanes (combine (r.sel % 4) code r.rnd) (Nat.log2 n) 1 d.1 (lanesIn code s.cur.a.bits)
    d.2.send r (.wide (wideOfLanes (laneWidth code) v))) s

/-- VPERM (R276): lane i from the lane of a that lane i of b names. -/
def execVperm (r : Rec) (s : State) : Host.Outcome State Fault Refusal :=
  wideResult 0xD2 r (fun x =>
    let code := r.fmt.toNat
    wideOfLanes (laneWidth code) ((lanesIn code x.b.bits).map (fun j =>
      wideLane (laneWidth code) x.a.bits (j % lanesOf code)))) s

/-- VBCAST (R278): one lane of a in every lane. -/
def execVbcast (r : Rec) (s : State) : Host.Outcome State Fault Refusal :=
  wideResult 0xD3 r (fun x =>
    let w := laneWidth r.fmt.toNat
    wideOfLanes w (List.replicate (lanesOf r.fmt.toNat) (wideLane w x.a.bits (r.sel % 64)))) s

/-- VSHUF (R277). -/
def execVshuf (r : Rec) (s : State) : Host.Outcome State Fault Refusal :=
  wideResult 0xD4 r (fun x =>
    let w := laneWidth r.fmt.toNat
    let n := lanesOf r.fmt.toNat
    wideOfLanes w ((List.range n).map (shuffleLane w n (r.sel % 8) (r.sel / 16 % 128) x.a.bits x.b.bits))) s

/-- VCVT (R147, R279): no overflow token. -/
def execVcvt (r : Rec) (s : State) : Host.Outcome State Fault Refusal :=
  firing 0xD5 r (fun t =>
    let dst := r.fmt.toNat
    let d := t.draws r.rnd (min (lanesOf r.src) (lanesOf dst))
    let v := (convertElements r.src dst r.rnd d.1 s.cur.a.bits (r.sel % 8)).map (fun p => p.1)
    d.2.send r (.wide (wideOfLanes (laneWidth dst) v))) s

/-- VQUANT (R281): the elements to target 0 and the scale byte to target 1; with SMODE 0 the elements to both. -/
def execVquant (r : Rec) (s : State) : Host.Outcome State Fault Refusal :=
  firing 0xD6 r (fun t =>
    let dst := r.fmt.toNat
    let smode := r.sel / 4 % 4
    let d := t.draws r.rnd (lanesOf r.src)
    let q := quantize dst r.src r.rnd d.1 (quantScale dst smode (r.sel % 4) s.cur.cw) s.cur.a.bits
    if smode = 0 then d.2.send r (.wide q.1)
    else (d.2.emit r.t0 (.wide q.1)).emit r.t1 (.narrow (BitVec.ofNat 32 q.2))) s

/-- VDEQ (R283). -/
def execVdeq (r : Rec) (s : State) : Host.Outcome State Fault Refusal :=
  firing 0xD7 r (fun t =>
    let dst := r.fmt.toNat
    let n := lanesOf dst
    let d := t.draws r.rnd n
    let scale := if r.sel / 8 % 2 = 1 then some (s.cur.cw.toNat % 256) else none
    let v := (List.range n).map (fun j =>
      roundTo dst r.rnd false (d.1.getD j 0)
        (dequantElement r.src scale (wideLane (laneWidth r.src) s.cur.a.bits (r.sel % 8 * n + j))))
    d.2.send r (.wide (wideOfLanes (laneWidth dst) v))) s

/-- VPACK (R280). -/
def execVpack (r : Rec) (s : State) : Host.Outcome State Fault Refusal :=
  wideResult 0xD8 r (fun x =>
    let w := laneWidth r.fmt.toNat
    let m := packLanes r
    wideOfLanes w ((List.range m).map (wideLane w x.a.bits) ++ (List.range m).map (wideLane w x.b.bits))) s

/-- VUNPK (R280). -/
def execVunpk (r : Rec) (s : State) : Host.Outcome State Fault Refusal :=
  wideResult 0xD9 r (fun x =>
    let w := laneWidth r.fmt.toNat
    let m := packLanes r
    wideOfLanes w ((List.range m).map (fun i => wideLane w x.a.bits (r.sel / 4 % 8 * m + i)))) s

/-- VIOTA (R278): integers from a, or s + i. -/
def execViota (r : Rec) (s : State) : Host.Outcome State Fault Refusal :=
  firing 0xDA r (fun t =>
    let code := r.fmt.toNat
    let w := laneWidth code
    let n := lanesOf code
    if r.flags.getLsbD 0 then
      t.send r (.wide (wideOfLanes w ((List.range n).map (fun i => s.cur.aw.toNat + i))))
    else
      let d := t.draws r.rnd n
      let x := decodeFloat code (scalarBits code s.cur.aw)
      d.2.send r (.wide (wideOfLanes w ((List.range n).map (fun i =>
        roundTo code r.rnd false (d.1.getD i 0) (x.add r.rnd (.fin false i 0 false))))))) s

/-- VSPLAT (R278): the scalar in every lane. -/
def execVsplat (r : Rec) (s : State) : Host.Outcome State Fault Refusal :=
  wideResult 0xDB r (fun x =>
    wideOfLanes (laneWidth r.fmt.toNat)
      (List.replicate (lanesOf r.fmt.toNat) (scalarBits r.fmt.toNat x.aw))) s

/-- CVT (R149, R285): the converted token to target 0, the overflow token to target 1. -/
def execCvt (r : Rec) (s : State) : Host.Outcome State Fault Refusal :=
  firing 0xF0 r (fun t =>
    let dst := r.fmt.toNat
    let part := r.sel % 8
    let v := convertElements r.src dst r.rnd [] s.cur.a.bits part
    let xs := (convertedLanes r.src dst part).map (fun i => decodeFloat r.src (wideLane (laneWidth r.src) s.cur.a.bits i))
    let t := t.emit r.t0 (.wide (wideOfLanes (laneWidth dst) (v.map (fun p => p.1))))
    match overflowToken xs (v.filter (fun p => p.2)).length with
    | some o => t.emit r.t1 (.narrow o)
    | none => t) s

/-- CLIP (R286). -/
def execClip (r : Rec) (s : State) : Host.Outcome State Fault Refusal :=
  wideResult 0xF1 r (fun x =>
    wideOfLanes (laneWidth r.fmt.toNat)
      ((lanesIn r.fmt.toNat x.a.bits).map (clipLane r.fmt.toNat (clipBound r.fmt.toNat x.bw)))) s

end Sys2Proof.Machine
end

