-- ==== Sys2Proof/Machine/Dispatch.lean ====
section
/-! DEFINITION. One arm per instruction: a direct call of its meaning, in the order of the table of operations. -/

namespace Sys2Proof.Machine

open Sys2Proof

/-- The meaning of every instruction. -/
def exec (i : Instr) (s : State) : Host.Outcome State Fault Refusal :=
  match i with
  | .illegal r => Sys2Proof.Machine.execIllegal r s
  | .fan r => Sys2Proof.Machine.execFan r s
  | .const r => Sys2Proof.Machine.execConst r s
  | .steer r => Sys2Proof.Machine.execSteer r s
  | .sel r => Sys2Proof.Machine.execSel r s
  | .merge r => Sys2Proof.Machine.execMerge r s
  | .wadv r => Sys2Proof.Machine.execWadv r s
  | .exit r => Sys2Proof.Machine.execExit r s
  | .gate r => Sys2Proof.Machine.execGate r s
  | .sink r => Sys2Proof.Machine.execSink r s
  | .purge r => Sys2Proof.Machine.execPurge r s
  | .coord r => Sys2Proof.Machine.execCoord r s
  | .tagrd r => Sys2Proof.Machine.execTagrd r s
  | .tagwr r => Sys2Proof.Machine.execTagwr r s
  | .call r => Sys2Proof.Machine.execCall r s
  | .ret r => Sys2Proof.Machine.execRet r s
  | .add r => Sys2Proof.Machine.execAdd r s
  | .sub r => Sys2Proof.Machine.execSub r s
  | .addc r => Sys2Proof.Machine.execAddc r s
  | .subb r => Sys2Proof.Machine.execSubb r s
  | .mul r => Sys2Proof.Machine.execMul r s
  | .mulhs r => Sys2Proof.Machine.execMulhs r s
  | .mulhn r => Sys2Proof.Machine.execMulhn r s
  | .divs r => Sys2Proof.Machine.execDivs r s
  | .divn r => Sys2Proof.Machine.execDivn r s
  | .rems r => Sys2Proof.Machine.execRems r s
  | .remn r => Sys2Proof.Machine.execRemn r s
  | .abs r => Sys2Proof.Machine.execAbs r s
  | .mins r => Sys2Proof.Machine.execMins r s
  | .maxs r => Sys2Proof.Machine.execMaxs r s
  | .minn r => Sys2Proof.Machine.execMinn r s
  | .maxn r => Sys2Proof.Machine.execMaxn r s
  | .and r => Sys2Proof.Machine.execAnd r s
  | .or r => Sys2Proof.Machine.execOr r s
  | .xor r => Sys2Proof.Machine.execXor r s
  | .andn r => Sys2Proof.Machine.execAndn r s
  | .not r => Sys2Proof.Machine.execNot r s
  | .shl r => Sys2Proof.Machine.execShl r s
  | .shr r => Sys2Proof.Machine.execShr r s
  | .sar r => Sys2Proof.Machine.execSar r s
  | .rol r => Sys2Proof.Machine.execRol r s
  | .ror r => Sys2Proof.Machine.execRor r s
  | .clz r => Sys2Proof.Machine.execClz r s
  | .ctz r => Sys2Proof.Machine.execCtz r s
  | .popc r => Sys2Proof.Machine.execPopc r s
  | .brev r => Sys2Proof.Machine.execBrev r s
  | .bfx r => Sys2Proof.Machine.execBfx r s
  | .bfi r => Sys2Proof.Machine.execBfi r s
  | .ceq r => Sys2Proof.Machine.execCeq r s
  | .cne r => Sys2Proof.Machine.execCne r s
  | .clts r => Sys2Proof.Machine.execClts r s
  | .cles r => Sys2Proof.Machine.execCles r s
  | .cltn r => Sys2Proof.Machine.execCltn r s
  | .clen r => Sys2Proof.Machine.execClen r s
  | .cbit r => Sys2Proof.Machine.execCbit r s
  | .pand r => Sys2Proof.Machine.execPand r s
  | .por r => Sys2Proof.Machine.execPor r s
  | .pxor r => Sys2Proof.Machine.execPxor r s
  | .pnot r => Sys2Proof.Machine.execPnot r s
  | .lea r => Sys2Proof.Machine.execLea r s
  | .sext r => Sys2Proof.Machine.execSext r s
  | .zext r => Sys2Proof.Machine.execZext r s
  | .pack2 r => Sys2Proof.Machine.execPack2 r s
  | .pack4 r => Sys2Proof.Machine.execPack4 r s
  | .unpk r => Sys2Proof.Machine.execUnpk r s
  | .swz r => Sys2Proof.Machine.execSwz r s
  | .addp r => Sys2Proof.Machine.execAddp r s
  | .subp r => Sys2Proof.Machine.execSubp r s
  | .avgp r => Sys2Proof.Machine.execAvgp r s
  | .absdp r => Sys2Proof.Machine.execAbsdp r s
  | .fadd r => Sys2Proof.Machine.execFadd r s
  | .fsub r => Sys2Proof.Machine.execFsub r s
  | .fmul r => Sys2Proof.Machine.execFmul r s
  | .ffma r => Sys2Proof.Machine.execFfma r s
  | .ffms r => Sys2Proof.Machine.execFfms r s
  | .fmin r => Sys2Proof.Machine.execFmin r s
  | .fmax r => Sys2Proof.Machine.execFmax r s
  | .fabs r => Sys2Proof.Machine.execFabs r s
  | .fneg r => Sys2Proof.Machine.execFneg r s
  | .fcmp r => Sys2Proof.Machine.execFcmp r s
  | .fdiv r => Sys2Proof.Machine.execFdiv r s
  | .fsqrt r => Sys2Proof.Machine.execFsqrt r s
  | .frcp r => Sys2Proof.Machine.execFrcp r s
  | .frsq r => Sys2Proof.Machine.execFrsq r s
  | .fclass r => Sys2Proof.Machine.execFclass r s
  | .fexp2 r => Sys2Proof.Machine.execFexp2 r s
  | .cvtif r => Sys2Proof.Machine.execCvtif r s
  | .cvtfi r => Sys2Proof.Machine.execCvtfi r s
  | .cvtff r => Sys2Proof.Machine.execCvtff r s
  | .fround r => Sys2Proof.Machine.execFround r s
  | .ld r => Sys2Proof.Machine.execLd r s
  | .st r => Sys2Proof.Machine.execSt r s
  | .lda r => Sys2Proof.Machine.execLda r s
  | .stl r => Sys2Proof.Machine.execStl r s
  | .mnop r => Sys2Proof.Machine.execMnop r s
  | .fence r => Sys2Proof.Machine.execFence r s
  | .pref r => Sys2Proof.Machine.execPref r s
  | .ldu r => Sys2Proof.Machine.execLdu r s
  | .stu r => Sys2Proof.Machine.execStu r s
  | .ldw r => Sys2Proof.Machine.execLdw r s
  | .stw r => Sys2Proof.Machine.execStw r s
  | .pin r => Sys2Proof.Machine.execPin r s
  | .unpin r => Sys2Proof.Machine.execUnpin r s
  | .flush r => Sys2Proof.Machine.execFlush r s
  | .inval r => Sys2Proof.Machine.execInval r s
  | .aadd r => Sys2Proof.Machine.execAadd r s
  | .amins r => Sys2Proof.Machine.execAmins r s
  | .amaxs r => Sys2Proof.Machine.execAmaxs r s
  | .aminn r => Sys2Proof.Machine.execAminn r s
  | .amaxn r => Sys2Proof.Machine.execAmaxn r s
  | .aand r => Sys2Proof.Machine.execAand r s
  | .aor r => Sys2Proof.Machine.execAor r s
  | .axor r => Sys2Proof.Machine.execAxor r s
  | .axchg r => Sys2Proof.Machine.execAxchg r s
  | .acas r => Sys2Proof.Machine.execAcas r s
  | .afadd r => Sys2Proof.Machine.execAfadd r s
  | .qinit r => Sys2Proof.Machine.execQinit r s
  | .qtake r => Sys2Proof.Machine.execQtake r s
  | .qtakew r => Sys2Proof.Machine.execQtakew r s
  | .qgive r => Sys2Proof.Machine.execQgive r s
  | .qread r => Sys2Proof.Machine.execQread r s
  | .qreadLocal r => Sys2Proof.Machine.execQreadLocal r s
  | .qpol r => Sys2Proof.Machine.execQpol r s
  | .preg r => Sys2Proof.Machine.execPreg r s
  | .psig r => Sys2Proof.Machine.execPsig r s
  | .pwait r => Sys2Proof.Machine.execPwait r s
  | .pdrop r => Sys2Proof.Machine.execPdrop r s
  | .pstat r => Sys2Proof.Machine.execPstat r s
  | .join r => Sys2Proof.Machine.execJoin r s
  | .jcfg r => Sys2Proof.Machine.execJcfg r s
  | .carm r => Sys2Proof.Machine.execCarm r s
  | .cset r => Sys2Proof.Machine.execCset r s
  | .cfire r => Sys2Proof.Machine.execCfire r s
  | .cstat r => Sys2Proof.Machine.execCstat r s
  | .ccancel r => Sys2Proof.Machine.execCcancel r s
  | .chbind r => Sys2Proof.Machine.execChbind r s
  | .chexp r => Sys2Proof.Machine.execChexp r s
  | .hin r => Sys2Proof.Machine.execHin r s
  | .hout r => Sys2Proof.Machine.execHout r s
  | .xsend r => Sys2Proof.Machine.execXsend r s
  | .vadd r => Sys2Proof.Machine.execVadd r s
  | .vsub r => Sys2Proof.Machine.execVsub r s
  | .vmul r => Sys2Proof.Machine.execVmul r s
  | .vfma r => Sys2Proof.Machine.execVfma r s
  | .vmin r => Sys2Proof.Machine.execVmin r s
  | .vmax r => Sys2Proof.Machine.execVmax r s
  | .vabs r => Sys2Proof.Machine.execVabs r s
  | .vneg r => Sys2Proof.Machine.execVneg r s
  | .vcmp r => Sys2Proof.Machine.execVcmp r s
  | .vsel r => Sys2Proof.Machine.execVsel r s
  | .vexp2 r => Sys2Proof.Machine.execVexp2 r s
  | .vlog2 r => Sys2Proof.Machine.execVlog2 r s
  | .vrcp r => Sys2Proof.Machine.execVrcp r s
  | .vrsq r => Sys2Proof.Machine.execVrsq r s
  | .vtanh r => Sys2Proof.Machine.execVtanh r s
  | .vsigm r => Sys2Proof.Machine.execVsigm r s
  | .vred r => Sys2Proof.Machine.execVred r s
  | .vscan r => Sys2Proof.Machine.execVscan r s
  | .vperm r => Sys2Proof.Machine.execVperm r s
  | .vbcast r => Sys2Proof.Machine.execVbcast r s
  | .vshuf r => Sys2Proof.Machine.execVshuf r s
  | .vcvt r => Sys2Proof.Machine.execVcvt r s
  | .vquant r => Sys2Proof.Machine.execVquant r s
  | .vdeq r => Sys2Proof.Machine.execVdeq r s
  | .vpack r => Sys2Proof.Machine.execVpack r s
  | .vunpk r => Sys2Proof.Machine.execVunpk r s
  | .viota r => Sys2Proof.Machine.execViota r s
  | .vsplat r => Sys2Proof.Machine.execVsplat r s
  | .tcfg r => Sys2Proof.Machine.execTcfg r s
  | .tld r => Sys2Proof.Machine.execTld r s
  | .tldStr r => Sys2Proof.Machine.execTldStr r s
  | .tldTok r => Sys2Proof.Machine.execTldTok r s
  | .tst r => Sys2Proof.Machine.execTst r s
  | .tstTok r => Sys2Proof.Machine.execTstTok r s
  | .tzero r => Sys2Proof.Machine.execTzero r s
  | .tmov r => Sys2Proof.Machine.execTmov r s
  | .ttrn r => Sys2Proof.Machine.execTtrn r s
  | .zld r => Sys2Proof.Machine.execZld r s
  | .zst r => Sys2Proof.Machine.execZst r s
  | .zzero r => Sys2Proof.Machine.execZzero r s
  | .zcvt r => Sys2Proof.Machine.execZcvt r s
  | .mop r => Sys2Proof.Machine.execMop r s
  | .mseq r => Sys2Proof.Machine.execMseq r s
  | .mpair r => Sys2Proof.Machine.execMpair r s
  | .cvt r => Sys2Proof.Machine.execCvt r s
  | .clip r => Sys2Proof.Machine.execClip r s
  | .trap r => Sys2Proof.Machine.execTrap r s
  | .brk r => Sys2Proof.Machine.execBrk r s
  | .sysrd r => Sys2Proof.Machine.execSysrd r s
  | .syswr r => Sys2Proof.Machine.execSyswr r s
  | .time r => Sys2Proof.Machine.execTime r s
  | .perf r => Sys2Proof.Machine.execPerf r s
  | .feat r => Sys2Proof.Machine.execFeat r s
  | .drain r => Sys2Proof.Machine.execDrain r s
  | .mma t => Sys2Proof.Machine.execMma t s
  | .mmap t => Sys2Proof.Machine.execMmap t s
  | .configWrite addr fld val => Sys2Proof.Machine.execConfigWrite addr fld val s
  | .beginStream val => Sys2Proof.Machine.execBeginStream val s
  | .patbegin val => Sys2Proof.Machine.execPatbegin val s
  | .recta val => Sys2Proof.Machine.execRecta val s
  | .rectb val => Sys2Proof.Machine.execRectb val s
  | .patend val => Sys2Proof.Machine.execPatend val s
  | .endStream val => Sys2Proof.Machine.execEndStream val s
  | .chklo val => Sys2Proof.Machine.execChklo val s
  | .chkhi val => Sys2Proof.Machine.execChkhi val s
  | .ingressRecord cluster node value wtag => Sys2Proof.Machine.execIngressRecord cluster node value wtag s
  | .apertureSeal q => Sys2Proof.Machine.execApertureSeal q s
  | .launch l => Sys2Proof.Machine.execLaunch l s
  | .wait q seq => Sys2Proof.Machine.execWait q seq s
  | .waitf addr val => Sys2Proof.Machine.execWaitf addr val s
  | .signal addr val => Sys2Proof.Machine.execSignal addr val s
  | .load obj size result => Sys2Proof.Machine.execLoad obj size result s
  | .loadPlace rect obj size result => Sys2Proof.Machine.execLoadPlace rect obj size result s
  | .unload handle => Sys2Proof.Machine.execUnload handle s
  | .freeze rect list => Sys2Proof.Machine.execFreeze rect list s
  | .resume list => Sys2Proof.Machine.execResume list s
  | .drainPacket rect list dtime => Sys2Proof.Machine.execDrainPacket rect list dtime s
  | .kill q => Sys2Proof.Machine.execKill q s
  | .retry cluster station => Sys2Proof.Machine.execRetry cluster station s
  | .release q => Sys2Proof.Machine.execRelease q s
  | .tlbinv va size root => Sys2Proof.Machine.execTlbinv va size root s
  | .continuePkt q handle => Sys2Proof.Machine.execContinuePkt q handle s
  | .evheadWrite q val => Sys2Proof.Machine.execEvheadWrite q val s
  | .hintWrite q off data => Sys2Proof.Machine.execHintWrite q off data s
  | .qctlWrite q val => Sys2Proof.Machine.execQctlWrite q val s
  | .egconsWrite val => Sys2Proof.Machine.execEgconsWrite val s
  | .fpprodWrite val => Sys2Proof.Machine.execFpprodWrite val s
  | .svprodWrite val => Sys2Proof.Machine.execSvprodWrite val s
  | .registerWrite off data => Sys2Proof.Machine.execRegisterWrite off data s
  | .handoverGo val => Sys2Proof.Machine.execHandoverGo val s
  | .handoverEnd val => Sys2Proof.Machine.execHandoverEnd val s
  | .rcvctlGo val => Sys2Proof.Machine.execRcvctlGo val s
  | .readpwr payload => Sys2Proof.Machine.execReadpwr payload s
  | .readlog payload => Sys2Proof.Machine.execReadlog payload s
  | .stage payload => Sys2Proof.Machine.execStage payload s
  | .commit payload => Sys2Proof.Machine.execCommit payload s
  | .setkey payload => Sys2Proof.Machine.execSetkey payload s
  | .quote payload => Sys2Proof.Machine.execQuote payload s
  | .readquote payload => Sys2Proof.Machine.execReadquote payload s
  | .status payload => Sys2Proof.Machine.execStatus payload s
  | .mgmtReset payload => Sys2Proof.Machine.execMgmtReset payload s
  | .readkeys payload => Sys2Proof.Machine.execReadkeys payload s
  | .unknownMgmtCode code => Sys2Proof.Machine.execUnknownMgmtCode code s
  | .bypass ir => Sys2Proof.Machine.execBypass ir s
  | .mmaComplete => Sys2Proof.Machine.execMmaComplete s
  | .mmapPartnerArrival => Sys2Proof.Machine.execMmapPartnerArrival s
  | .moStreamFault => Sys2Proof.Machine.execMoStreamFault s
  | .mseqStep => Sys2Proof.Machine.execMseqStep s
  | .registerOpBegin => Sys2Proof.Machine.execRegisterOpBegin s
  | .tileWriteComplete => Sys2Proof.Machine.execTileWriteComplete s
  | .tokenArrival => Sys2Proof.Machine.execTokenArrival s
  | .overflowSlotFreed => Sys2Proof.Machine.execOverflowSlotFreed s
  | .creditReturn => Sys2Proof.Machine.execCreditReturn s
  | .arbiterWeightUpdate => Sys2Proof.Machine.execArbiterWeightUpdate s
  | .deadlockProbeSend => Sys2Proof.Machine.execDeadlockProbeSend s
  | .deadlockProbeArrival => Sys2Proof.Machine.execDeadlockProbeArrival s
  | .exportSend => Sys2Proof.Machine.execExportSend s
  | .exportArrival => Sys2Proof.Machine.execExportArrival s
  | .exportAck => Sys2Proof.Machine.execExportAck s
  | .waveCloseQuiescence => Sys2Proof.Machine.execWaveCloseQuiescence s
  | .contextComplete => Sys2Proof.Machine.execContextComplete s
  | .migrationSelect => Sys2Proof.Machine.execMigrationSelect s
  | .stubRelease => Sys2Proof.Machine.execStubRelease s
  | .streamCutShort => Sys2Proof.Machine.execStreamCutShort s
  | .configSweep => Sys2Proof.Machine.execConfigSweep s
  | .seedInjection => Sys2Proof.Machine.execSeedInjection s
  | .wsbArrival => Sys2Proof.Machine.execWsbArrival s
  | .memoryReply => Sys2Proof.Machine.execMemoryReply s
  | .pageWalk => Sys2Proof.Machine.execPageWalk s
  | .demandPageService => Sys2Proof.Machine.execDemandPageService s
  | .vaultAccess => Sys2Proof.Machine.execVaultAccess s
  | .atomicAtHome => Sys2Proof.Machine.execAtomicAtHome s
  | .rds => Sys2Proof.Machine.execRds s
  | .rdx => Sys2Proof.Machine.execRdx s
  | .upg => Sys2Proof.Machine.execUpg s
  | .evs => Sys2Proof.Machine.execEvs s
  | .evd => Sys2Proof.Machine.execEvd s
  | .data => Sys2Proof.Machine.execData s
  | .fwds => Sys2Proof.Machine.execFwds s
  | .fwdx => Sys2Proof.Machine.execFwdx s
  | .inv => Sys2Proof.Machine.execInv s
  | .iack => Sys2Proof.Machine.execIack s
  | .eack => Sys2Proof.Machine.execEack s
  | .hostCoherentRequest => Sys2Proof.Machine.execHostCoherentRequest s
  | .softErrorScrub => Sys2Proof.Machine.execSoftErrorScrub s
  | .quarryHomeRequest => Sys2Proof.Machine.execQuarryHomeRequest s
  | .quarryRefill => Sys2Proof.Machine.execQuarryRefill s
  | .quarryRecall => Sys2Proof.Machine.execQuarryRecall s
  | .quarryRecallAnswer => Sys2Proof.Machine.execQuarryRecallAnswer s
  | .counterLineWrite => Sys2Proof.Machine.execCounterLineWrite s
  | .copyTrigger => Sys2Proof.Machine.execCopyTrigger s
  | .copyFault => Sys2Proof.Machine.execCopyFault s
  | .copyComplete => Sys2Proof.Machine.execCopyComplete s
  | .channelArrival => Sys2Proof.Machine.execChannelArrival s
  | .remoteCopyElement => Sys2Proof.Machine.execRemoteCopyElement s
  | .joinPartArrival => Sys2Proof.Machine.execJoinPartArrival s
  | .xsendRecordArrival => Sys2Proof.Machine.execXsendRecordArrival s
  | .spanFlitReplay => Sys2Proof.Machine.execSpanFlitReplay s
  | .spanPortDown => Sys2Proof.Machine.execSpanPortDown s
  | .spanRouteTimeout => Sys2Proof.Machine.execSpanRouteTimeout s
  | .launchWindowSeal => Sys2Proof.Machine.execLaunchWindowSeal s
  | .dispatchSelect => Sys2Proof.Machine.execDispatchSelect s
  | .waitfFlagRecheck => Sys2Proof.Machine.execWaitfFlagRecheck s
  | .freezeSave => Sys2Proof.Machine.execFreezeSave s
  | .drainSweepComplete => Sys2Proof.Machine.execDrainSweepComplete s
  | .drainTimeout => Sys2Proof.Machine.execDrainTimeout s
  | .watchdog => Sys2Proof.Machine.execWatchdog s
  | .preemptFreeze => Sys2Proof.Machine.execPreemptFreeze s
  | .preemptResume => Sys2Proof.Machine.execPreemptResume s
  | .ferryStart => Sys2Proof.Machine.execFerryStart s
  | .readSetConflict => Sys2Proof.Machine.execReadSetConflict s
  | .speculationTimeout => Sys2Proof.Machine.execSpeculationTimeout s
  | .retentionSleep => Sys2Proof.Machine.execRetentionSleep s
  | .handoverClear => Sys2Proof.Machine.execHandoverClear s
  | .handoverPageArrival => Sys2Proof.Machine.execHandoverPageArrival s
  | .powerSample => Sys2Proof.Machine.execPowerSample s
  | .powerOn => Sys2Proof.Machine.execPowerOn s
  | .deviceReset => Sys2Proof.Machine.execDeviceReset s
  | .stagedImageCheck => Sys2Proof.Machine.execStagedImageCheck s
  | .idcode => Sys2Proof.Machine.execIdcode s
  | .samplePreload => Sys2Proof.Machine.execSamplePreload s
  | .extest => Sys2Proof.Machine.execExtest s
  | .spanAccessRequest => Sys2Proof.Machine.execSpanAccessRequest s
  | .powerFault => Sys2Proof.Machine.execPowerFault s
  | .spanPortUp => Sys2Proof.Machine.execSpanPortUp s

end Sys2Proof.Machine
end

