-- ==== Sys2Proof/Machine/Step.lean ====
section
/-! DEFINITION. One step of the device: time passes, one due activity is chosen, its instruction is fetched and runs. -/

namespace Sys2Proof.Machine

open Sys2Proof

/-- One step. Where nothing that is due can go on, only time passes. -/
def step (s : State) : Host.Outcome State Fault Refusal :=
  match s.tick.fetch with
  | .run i t => exec i t
  | .pass t => .next t
  | .stuck c st => .fault (.undecodable c st)

/-- The state with the instruction whose bits are w stored where the next step takes it: a boundary-scan code shifted in, a
control token at the head of an MO's queue, a record in a station whose tokens stand, a packet at the head of queue 0. -/
def State.withFetchWord (s : State) (nbits w : Nat) : State :=
  match codeOfBits nbits w with
  | some code => s.place code
  | none => s

end Sys2Proof.Machine
end

