-- ==== Sys2Proof/Safety.lean ====
section
/-! DEFINITION. What counts as a safe run: no step stops, and the containers of the state keep their canonical form. -/

namespace Sys2Proof.Safety

open Sys2Proof Sys2Proof.Machine

/-- Whether an outcome is a next state. -/
def goesOn : Host.Outcome State Fault Refusal → Bool
  | .next _ => true
  | _ => false

/-- The memory of a state is in canonical form, and so is the vault of every region. -/
def memoryOk (s : State) : Bool := Bytes.wf s.mem && s.regions.all (fun e => Bytes.wf e.2.vaultBytes)

/-- A step is safe where it answers a next state whose memory is in canonical form. -/
def safeStep (s : State) : Bool :=
  match step s with
  | .next t => memoryOk t
  | _ => false

end Sys2Proof.Safety
end

