-- ==== Sys2Proof/Certificates/Slice0/Obligations.lean ====
section
/-! DEFINITION. The statements about the DX8 that the provers prove, with the predicates they are written in. -/

namespace Sys2Proof.Spec

open Sys2Proof Sys2Proof.Machine

/-- A firing that takes its full effect answers the next state in which its tokens are consumed and one narrow value, which meets
the condition, is sent to both targets (R31, R155). -/
def Fires (op : Nat) (i : Instr) (r : Rec) (s : State) (p : Word → Prop) : Prop :=
  ∃ v, exec i s = .next ((s.consume op r).sendWord r v) ∧ p v

/-- Lane n of a value under a type, as bits (R154). -/
def bitsAt (t : LaneType) (v : Word) (n : Nat) : Nat := v.toNat / 2 ^ (t.w * n) % 2 ^ t.w

/-- Lane n of a value under a type, read as signed (R129). -/
def intAt (t : LaneType) (v : Word) (n : Nat) : Int := toSigned t.w (bitsAt t v n)

/-- Every lane of a result meets a condition, and the bits above an unpacked lane are its sign for a signed type and zeros for a
natural one (R130, R154, R179). -/
def Lanes (t : LaneType) (v : Word) (p : Nat → Prop) : Prop :=
  (∀ n, n < t.lanes → p n) ∧
    (t.packed = false → v = if t.natural then BitVec.ofNat 32 (bitsAt t v 0) else BitVec.ofInt 32 (intAt t v 0))

/-- Lane n of a packed or unpacked floating value of a format, as an encoding (R195). -/
def encAt (code : Nat) (v : Word) (n : Nat) : Nat :=
  v.toNat / 2 ^ ((floatFormat code).bits * n) % 2 ^ (floatFormat code).bits

/-- Lane n of a floating value, as an exact value (R134, R135). -/
def numAt (code : Nat) (v : Word) (n : Nat) : Exact := decodeFloat code (encAt code v n)

/-- Every lane of a floating result of a PE is as given, and the bits above them are zero (R195). -/
def FLanes (code : Nat) (x2 : Bool) (v : Word) (f : Nat → Nat) : Prop :=
  (∀ n, n < (if x2 then 2 else 1) → encAt code v n = f n) ∧
    v.toNat < 2 ^ ((floatFormat code).bits * (if x2 then 2 else 1))

/-- The formats and packing that a PE floating record may name (R195). -/
def PeFloat (r : Rec) : Prop := r.fmt.toNat ≤ 2 ∧ (r.flags.getLsbD 0 = true → r.fmt.toNat ≠ 0)

/-- The bits of a lane of a wide token of a format (R269). -/
def wideBits (code : Nat) : Nat := 1024 / lanesOf code

/-- Lane n of a wide token of a format (R269). -/
def laneAt (code : Nat) (v : Wide) (n : Nat) : Nat := v.toNat / 2 ^ (wideBits code * n) % 2 ^ wideBits code

/-- A stochastic register after n steps (R144). -/
def stepped : Nat → Word → Word
  | 0, x => x
  | n + 1, x =>
    let y := stepped n x
    if y.getLsbD 0 then (y >>> 1) ^^^ 0x80200003#32 else y >>> 1

/-- The register of the vector element in hand (R144). -/
def register (s : State) : Word := (s.region s.cur.cluster).lfsr.getD ((s.cur.station - 0x1000) / 8) 1

/-- Draw n of a firing under a rounding code: 16 bits of the register after n + 1 steps under .rsr, and 0 under another mode
(R144, R145). -/
def drawAt (s : State) (mode n : Nat) : Nat := if mode = 4 then (stepped (n + 1) (register s)).toNat % 65536 else 0

/-- The state after a firing's draws: the register of the vector element in hand n steps on under .rsr, and nothing changed under
another mode (R144, R145). -/
def drawn (s : State) (mode n : Nat) : State :=
  if mode = 4 then
    s.updRegion s.cur.cluster (fun k => { k with lfsr := k.lfsr.set ((s.cur.station - 0x1000) / 8) (stepped n (register s)) })
  else s

/-- A firing of a vector element that completes: its tokens are consumed, n draws are taken under a rounding code, and a wide token
that meets the condition is sent to both targets (R155, R269). -/
def VFires (op : Nat) (i : Instr) (r : Rec) (s : State) (mode n : Nat) (p : Wide → Prop) : Prop :=
  ∃ v, exec i s = .next ((drawn (s.consume op r) mode n).send r (.wide v)) ∧ p v

/-- The scalar of a vector operation in a format (R270). -/
def scalarOf (code : Nat) (v : Word) : Nat :=
  if code = 3 then roundTo 3 0 false 0 (decodeFloat 0 v.toNat) else v.toNat % 2 ^ wideBits code

/-- The value at node i of level k of a pairwise tree over n lanes, the combinations numbered level by level (R151). -/
def treeNode (f : Nat → Nat → Nat → Nat) (n : Nat) (lane : Nat → Nat) : Nat → Nat → Nat
  | 0, i => lane i
  | k + 1, i => f (n - n / 2 ^ k + i) (treeNode f n lane k (2 * i)) (treeNode f n lane k (2 * i + 1))

/-- Lane i of level k of an inclusive scan over n lanes, the combinations numbered level by level (R152). -/
def scanNode (f : Nat → Nat → Nat → Nat) (n : Nat) (lane : Nat → Nat) : Nat → Nat → Nat
  | 0, i => lane i
  | k + 1, i =>
    if i < 2 ^ k then scanNode f n lane k i
    else f (k * n - (2 ^ k - 1) + (i - 2 ^ k)) (scanNode f n lane k (i - 2 ^ k)) (scanNode f n lane k i)

/-- The virtual address of an access by the firing in hand (R205, R214): the base slot of the executing port that F3 names, for the
context of the tag, and an offset of 32 bits: sext(F6) where port A is immediate, and otherwise port A plus sext(F6), or plus 0
where F6 is the immediate of port B; in group 0xB the offset is port A, its 32-bit immediate included (R215). -/
def vaFor (op : Nat) (r : Rec) (s : State) : Dword :=
  let base := (s.region s.cur.cluster).bases.getD
    ((tagCtx s.cur.tag).toNat * 256 + (s.cur.station - 0x1100) / 8 * 8 + r.sel / 256 % 8) 0
  let f6 : Word := r.f6.signExtend 32
  let off : Word := if 0xB0 ≤ op ∧ op < 0xC0 then s.cur.a.word
    else if r.a.act = .immediate then f6
    else s.cur.a.word + (if readsB op r = true ∧ r.b.act = .immediate then 0 else f6)
  base + off.zeroExtend 64

/-- A firing of a memory port that completes: its tokens are consumed, and a request with a fresh number reaches the wave store
buffer before anything else is due, or leaves unordered for translation, counted as a reply outstanding (R61, R217, R220, R232). It carries the tag, the station, the
address of R214 and the operands. -/
def Requests (op : Nat) (i : Instr) (r : Rec) (s : State) (ordered : Bool) (kind : ReqKind) (size : Nat)
    (p : MemReq → Prop) : Prop :=
  ∃ q : MemReq, exec i s = .next (
      let u := (s.consume op r).addReq q
      if ordered then u.dueNow .wsbArrival { id := q.id } else u.dueEvent .pageWalk { id := q.id }) ∧
    q.id = s.nextId ∧ q.cluster = s.cur.cluster ∧ q.station = s.cur.station ∧ q.tag = s.cur.tag ∧ q.kind = kind ∧
    q.size = size ∧ q.va = vaFor op r s ∧ q.ordered = ordered ∧
    q.stage = (if ordered then .buffered else .issued) ∧
    (ordered = true → q.pred = r.f7.extractLsb' 10 5 ∧ q.own = r.f7.extractLsb' 5 5 ∧ q.succ = r.f7.extractLsb' 0 5 ∧
      q.block = r.block.toNat) ∧ p q

/-- No record of the wave in hand at the block of the record says that DRAIN has closed it (R212). -/
def NotDrained (r : Rec) (s : State) : Prop :=
  ∀ w, s.wave? s.cur.cluster r.block.toNat s.cur.tag = some w → w.drained = false

/-- A change that stays within one cluster: nothing else of the device changes, what is due and its order apart. -/
def Within (c : Nat) (s t : State) : Prop :=
  t = { s with agenda := t.agenda, picks := t.picks, regions := t.regions } ∧ ∀ d, d ≠ c → t.region d = s.region d

/-- The fold of R252: the part of a round with one more local arrival. -/
def joined (op : Nat) (p a : Word) : Word :=
  match op with
  | 0 => p + 1
  | 1 => p + a
  | 2 => if a.toInt < p.toInt then a else p
  | 3 => if p.toInt < a.toInt then a else p
  | 4 => if a.toNat < p.toNat then a else p
  | 5 => if p.toNat < a.toNat then a else p
  | 6 => p &&& a
  | _ => p ||| a

/-- An operation joins the order of a tile file, with the cycle in which it came: it goes before the first waiting operation of that cycle
whose station has a higher address, and where there is none it goes last (R290). -/
def Joins (cycle : Nat) (o : RegOp) (l l' : List RegOp) : Prop :=
  let later := fun (p : RegOp) => p.came = cycle ∧ p.begun = false ∧ o.station < p.station
  o.came = cycle ∧ ∃ before after : List RegOp, l = before ++ after ∧ l' = before ++ o :: after ∧
    (∀ p ∈ before, ¬ later p) ∧ ∀ p, after.head? = some p → later p

/-- A firing that reaches the tile file: its operation joins the order there with its readers and writers, its reply counts as
outstanding, and the tile file is looked at (R61, R290). -/
def Queued (op : Nat) (i : Instr) (r : Rec) (s : State) (reads writes : List (BitVec 7)) (acquire release : Bool)
    (act : RegAct) : Prop :=
  let c := s.cur.cluster
  let u := s.consume op r
  ∃ (t : State) (o : RegOp), exec i s = .next t ∧ Within c { u with nextId := u.nextId + 1 } t ∧
    Joins s.cycle o (u.region c).regOps (t.region c).regOps ∧ o.station = s.cur.station ∧ o.tag = s.cur.tag ∧
    o.writes = writes ∧ o.reads = reads ∧ o.begun = false ∧
    o.fe = (r.a.fe && (r.a.act == .consume || r.a.act == .sticky)) ∧
    o.acquire = acquire ∧ o.release = release ∧ o.act = act ∧
    (t.counts c (tagCtx s.cur.tag)).replies = (u.counts c (tagCtx s.cur.tag)).replies + 1 ∧
    .event .registerOpBegin { cluster := c } ∈ t.agenda

/-- The token of step n of an expansion (R308). -/
def StepToken (template step : Word) (n : Nat) (w : Word) : Prop :=
  let a := template.toNat
  let b := step.toNat
  w.toNat / 2 ^ 20 % 64 = (a / 2 ^ 20 + n * (b / 2 ^ 20 % 64)) % 64 ∧
  w.toNat / 2 ^ 14 % 64 = (a / 2 ^ 14 + n * (b / 2 ^ 8 % 64)) % 64 ∧
  w.toNat / 2 ^ 8 % 64 = (a / 2 ^ 8 + n * (b / 2 ^ 14 % 64)) % 64 ∧
  w.getLsbD 7 = (template.getLsbD 7 || (step.getLsbD 26 && decide (0 < n))) ∧
  w.toNat / 2 ^ 26 = a / 2 ^ 26 ∧ w.toNat % 2 ^ 7 = a % 2 ^ 7

/-- A stream of a region ends with a status that is not OK (R96, R97, R408): ADDR, FLD and the code go to its delivery, the region has
no stream any more, the records that the stream wrote are cleared where no resident configuration holds them, and a configuration
that it amended is no longer resident. -/
def Refused (i : Instr) (s : State) (d : Delivery) (addr fld code : Nat) : Prop :=
  let c := s.cur.cluster
  ∃ x : State, exec i s = .next (x.endDelivery c d.job (BitVec.ofNat 32 (addr * 2 ^ 19 + fld * 2 ^ 16 + code))) ∧
    Within c s x ∧ (x.region c).delivery = none ∧
    (∀ a ∈ d.written, (∀ e ∈ (x.region c).residents, a ∉ e.addrs) → (x.region c).records.get? a = none) ∧
    (∀ e ∈ (x.region c).residents, e ∈ (s.region c).residents ∧ (d.amend = true → e.tag ≠ d.tag)) ∧
    (d.amend = false → (x.region c).residents = (s.region c).residents ∧
      ∀ a, a ∉ d.written → (x.region c).records.get? a = (s.region c).records.get? a)

/-- A stream of a region goes on: nothing but its delivery changes. -/
def Streams (i : Instr) (s : State) (d : Delivery) : Prop :=
  ∃ t : State, exec i s = .next t ∧ t.agenda = s.agenda ∧ Within s.cur.cluster s t ∧
    t.region s.cur.cluster = { s.region s.cur.cluster with delivery := some d }

/-- The walk in hand goes on with its request: it is issued by a cluster, its context lives and is no speculation, and it has been
translated by nothing before (R218, R337, R396, R429). -/
def Walking (s : State) (q : MemReq) : Prop :=
  s.req? s.cur.id = some q ∧ q.stage = .issued ∧ q.cluster ≠ 64 ∧ s.isGone q = false ∧ s.specOf q.cluster q.tag = none ∧
  s.isSpec q.cluster q.tag = false ∧ q.early = none ∧ q.fetched = none ∧ (∀ p ∈ s.reqs, p.id = q.id → p = q) ∧ s.farLines = []

/-- The entries that the translation of an address reads for a request stand in no page in hand-over, and no soft error has struck
them (R329, R338). -/
def TablesRead (s : State) (q : MemReq) (va : Nat) : Prop :=
  ∀ a ∈ s.walkedBy q va, s.inLentPage (a / 128 * 128) = false ∧ s.poisoned.contains (a / 128) = false

/-- The bytes va to va + n − 1 lie in one line of local or host memory that is not in hand-over and that no soft error has struck, and
their address translates so (R315 to R318, R329, R338). -/
def Translates (s : State) (q : MemReq) (va n : Nat) (write : Bool) (t : Translation) : Prop :=
  0 < n ∧ va % 128 + n ≤ 128 ∧ TablesRead s q va ∧ (∀ a ∈ t.walked, s.poisoned.contains (a / 128) = false) ∧
  s.translate q.cluster q.tag (s.rootOf q.cluster q.tag) va write = .ok t ∧
  (s.physPlace t.pa = .hbm ∨ s.physPlace t.pa = .host) ∧ s.inLentPage t.pa = false ∧ s.poisoned.contains (t.pa / 128) = false

/-- The state once A, and D for a write, are set, and the leaf is cached (R318, R319). -/
def marked (s : State) (q : MemReq) (va : Nat) (write : Bool) (t : Translation) : State :=
  s.markLeaf q.cluster q.tag (s.rootOf q.cluster q.tag) va t write

/-- An access outside the aperture is performed at once: its leaf is uncached, a vault slot holds its page or the L1 holds the line (R320, R326,
R330). A write meets no slab, and a read no page that is mapped both ways. -/
def Served (s : State) (q : MemReq) (va : Nat) (write : Bool) (t : Translation) : Prop :=
  let u := marked s q va write t
  inAperture va = false ∧ (write = true → u.slabsOut (t.pa / 128) = false) ∧ (write = false → u.mixed (t.pa / 128) = false) ∧
  (leafMt t.leaf = 1 ∨ (u.residentSlot (t.pa / 65536)).isSome = true ∨ u.l1Serves q.cluster (t.pa / 128) write = true)

/-- The state in which such an access finds its bytes: a write that the L1 serves leaves its line there M. -/
def servedAt (s : State) (q : MemReq) (va : Nat) (write : Bool) (t : Translation) : State :=
  let u := marked s q va write t
  (if write = true ∧ leafMt t.leaf ≠ 1 ∧ u.residentSlot (t.pa / 65536) = none then
    u.updRegion q.cluster (fun r => { r with l1 := updEntry r.l1 (t.pa / 128) (fun l => { l with state := .m }) }) else u).updReq
    q.id (fun p => { p with sent := none })

/-- The new value of an atomic on a 4-byte location, none where ACAS writes nothing (R237, R239). -/
def atomicValue (op : AtomicOp) (old b c : Word) : Option Word :=
  match op with
  | .add => some (old + b)
  | .mins => some (if b.toInt < old.toInt then b else old)
  | .maxs => some (if old.toInt < b.toInt then b else old)
  | .minn => some (if b.toNat < old.toNat then b else old)
  | .maxn => some (if old.toNat < b.toNat then b else old)
  | .and => some (old &&& b)
  | .or => some (old ||| b)
  | .xor => some (old ^^^ b)
  | .xchg => some b
  | .cas => if old = b then some c else none
  | .fadd => none

/-- A change that a firing makes where it stands: nothing of the device changes but what is due and its order, and of the region of
its cluster nothing but the tokens, requests, waves and counts that its tokens move, the arbiter's counts of them, and the registers of random
rounding. -/
def TokensMove (c : Nat) (s t : State) : Prop :=
  Within c s t ∧
    t.region c = { s.region c with
      inUse := (t.region c).inUse, store := (t.region c).store, asked := (t.region c).asked, blocked := (t.region c).blocked,
      waits := (t.region c).waits, waves := (t.region c).waves, counts := (t.region c).counts, lfsr := (t.region c).lfsr,
      answers := (t.region c).answers, arb := (t.region c).arb }

/-- The opcodes whose firings move tokens and do nothing else: graph control but ILLEGAL, EXIT and RET, the scalar and vector families, CVT
and CLIP, SYSRD, TIME, PERF and FEAT (R103). -/
def movesTokens (op : Nat) : Bool :=
  (decide (1 ≤ op) && decide (op ≤ 0x0E) && op != 0x07) || (decide (0x10 ≤ op) && decide (op ≤ 0x63)) || (decide (0xC0 ≤ op) && decide (op ≤ 0xDB))
    || [0xF0, 0xF1, 0xF4, 0xF6, 0xF7, 0xF8].contains op

end Sys2Proof.Spec

open Sys2Proof Sys2Proof.Machine Sys2Proof.Spec

/-- In every state, with every operand, a firing that port P does not suppress completes: FAN and GATE send a to both
targets, CONST sends b, STEER sends a to the one target that bit 0 of b names, SEL sends a or b by bit 0 of c, MERGE
sends the token that fired to target 0 and the number of its arm to target 1, SINK sends nothing, CALL sends a to target
0 and the link b to target 1. (R161, R162, R163, R164, R165, R166, R167, R176) -/
def Obligations.RoutingFirings : Prop :=
  ∀ (r : Rec) (s : State), s.cur.go = true →
    exec (.fan r) s = .next ((s.consume 0x01 r).send r s.cur.a) ∧
    exec (.const r) s = .next ((s.consume 0x02 r).send r s.cur.b) ∧
    (s.cur.b.word.getLsbD 0 = true → exec (.steer r) s = .next ((s.consume 0x03 r).emit r.t0 s.cur.a)) ∧
    (s.cur.b.word.getLsbD 0 = false → exec (.steer r) s = .next ((s.consume 0x03 r).emit r.t1 s.cur.a)) ∧
    (s.cur.c.word.getLsbD 0 = true → exec (.sel r) s = .next ((s.consume 0x04 r).send r s.cur.a)) ∧
    (s.cur.c.word.getLsbD 0 = false → exec (.sel r) s = .next ((s.consume 0x04 r).send r s.cur.b)) ∧
    (s.cur.port = .a →
      exec (.merge r) s = .next (((s.consume 0x05 r).emit r.t0 s.cur.a).emitTag r.t1 (.narrow 1) s.cur.tag)) ∧
    (s.cur.port = .b →
      exec (.merge r) s = .next (((s.consume 0x05 r).emit r.t0 s.cur.b).emitTag r.t1 (.narrow 0) s.cur.tag)) ∧
    exec (.gate r) s = .next ((s.consume 0x08 r).send r s.cur.a) ∧
    exec (.sink r) s = .next (s.consume 0x09 r) ∧
    exec (.call r) s = .next (((s.consume 0x0E r).emitTag r.t0 s.cur.a s.cur.tag).emitTag r.t1 s.cur.b s.cur.tag)

/-- A firing that port P does not suppress completes. WADV sends a with the context and thread of its tag and its wave
raised by DELTA modulo 2^20. TAGRD sends the tag word as the value. TAGWR sends a with SUB and WAVE taken from b where
F0[0] and F0[1] say so and CTX unchanged. EXIT passes a with its tag and counts towards the exit count of its block.
(R168, R169, R170, R174, R175) -/
def Obligations.TagFirings : Prop :=
  ∀ (r : Rec) (s : State), s.cur.go = true →
    (∃ g : Word, exec (.wadv r) s = .next ((s.consume 0x06 r).sendTag r s.cur.a g) ∧
      g.extractLsb' 24 8 = s.cur.tag.extractLsb' 24 8 ∧ g.extractLsb' 0 4 = s.cur.tag.extractLsb' 0 4 ∧
      (g.extractLsb' 4 20).toNat
        = ((s.cur.tag.extractLsb' 4 20).toNat + (s.cur.b.word.extractLsb' 8 20).toNat) % 2 ^ 20) ∧
    exec (.tagrd r) s = .next ((s.consume 0x0C r).sendTag r (.narrow s.cur.tag) s.cur.tag) ∧
    (∃ g : Word, exec (.tagwr r) s = .next ((s.consume 0x0D r).sendTag r s.cur.a g) ∧
      g.extractLsb' 24 8 = s.cur.tag.extractLsb' 24 8 ∧
      g.extractLsb' 4 20 = (if r.flags.getLsbD 1 then s.cur.b.word else s.cur.tag).extractLsb' 4 20 ∧
      g.extractLsb' 0 4 = (if r.flags.getLsbD 0 then s.cur.b.word else s.cur.tag).extractLsb' 0 4) ∧
    exec (.exit r) s
      = .next (((s.consume 0x07 r).send r s.cur.a).countExit s.cur.cluster r.block.toNat s.cur.tag)

/-- A COORD that port P does not suppress sends a word whose upper half is zero and whose fields are LH, LW, the
absolute coordinates of the cluster and its offsets from the corner of the rectangle of its context, for every legal
rectangle that holds the cluster. (R173) -/
def Obligations.CoordWord : Prop :=
  ∀ (r : Rec) (s : State) (k : Ctx), s.cur.go = true → s.ctxAt s.cur.cluster (tagCtx s.cur.tag) = some k →
    k.rect.legal = true → k.rect.contains s.cur.cluster = true → s.cur.cluster < 64 → k.rect.lw < 4 → k.rect.lh < 4 →
    Fires 0x0B (.coord r) r s (fun v =>
      v.toNat / 2 ^ 16 = 0 ∧ v.toNat / 2 ^ 14 % 4 = k.rect.lh ∧ v.toNat / 2 ^ 12 % 4 = k.rect.lw ∧
      v.toNat / 2 ^ 9 % 8 = s.cur.cluster / 8 ∧ v.toNat / 2 ^ 6 % 8 = s.cur.cluster % 8 ∧
      v.toNat / 2 ^ 3 % 8 = s.cur.cluster / 8 - k.rect.y0 ∧ v.toNat % 8 = s.cur.cluster % 8 - k.rect.x0)

/-- A firing that port P does not suppress completes. ILLEGAL takes the exception ILLEGAL and TRAP takes TRAP, with the
tag and the values of the firing. RET sends a to the place its link word names where that place is legal, and takes
BAD_TARGET otherwise. PURGE sends a purge request for its tag to the port that target 0 names, with target 1 as the
place of the acknowledgement. The model's choices: a link word names a home address, which RET resolves to the current
one (log 24), and VALA and VALB of ILLEGAL and BAD_TARGET are the values of the firing (log 69). (R102, R171, R177,
R207, R412) -/
def Obligations.ControlTraps : Prop :=
  ∀ (r : Rec) (s : State), s.cur.go = true →
    exec (.illegal r) s = .next ((s.consume 0x00 r).takeTrap .illegal s.cur.cluster s.cur.station s.cur.tag s.cur.a.word
      s.cur.b.word) ∧
    exec (.trap r) s = .next ((s.consume 0xF2 r).takeTrap .trap s.cur.cluster s.cur.station s.cur.tag s.cur.a.word
      s.cur.b.word) ∧
    (s.linkOk s.cur.cluster s.cur.station s.cur.b.word = true →
      ∃ t : Target, exec (.ret r) s = .next ((s.consume 0x0F r).emitTag t s.cur.a s.cur.tag) ∧ t.valid = true ∧
        t.port.bits = s.cur.b.word.extractLsb' 13 2 ∧
        t.addr = BitVec.ofNat 13 (s.resolve s.cur.cluster (s.cur.b.word.extractLsb' 0 13).toNat)) ∧
    (s.linkOk s.cur.cluster s.cur.station s.cur.b.word = false →
      exec (.ret r) s = .next ((s.consume 0x0F r).takeTrap .badTarget s.cur.cluster s.cur.station s.cur.tag s.cur.a.word
        s.cur.b.word)) ∧
    exec (.purge r) s = .next ((s.consume 0x0A r).sendToken s.cur.station
      { cluster := s.cur.cluster, station := r.t0.addr.toNat, port := r.t0.port, kind := .purge r.t1, value := .narrow 0,
        tag := s.cur.tag })

/-- A SYSWR that port P does not suppress completes and sends 0 to both targets. Afterwards the register reads as the
value written: SYS.EXITV of the context, SYS.SRSEED with the registers of all 32 vector elements loaded from it, bit 0
of SYS.BRKEN, and either half of any of the 256 base slots, whose other half is unchanged. SYS.CLUID and SYS.FCLK take
no write. A SYSRD that port P does not suppress completes and sends the register. (R205, R206, R146) -/
def Obligations.SystemRegisterAccess : Prop :=
  ∀ (r : Rec) (s : State), s.cur.go = true →
    let c := s.cur.cluster
    let x := tagCtx s.cur.tag
    let n := s.cur.b.word.toNat
    let v := s.cur.a.word
    Fires 0xF4 (.sysrd r) r s (fun w => w = s.sysRead c x n) ∧
    ∃ t : State, exec (.syswr r) s = .next (t.sendWord r 0) ∧
      (n = 0 ∨ n = 5 → t = s.consume 0xF5 r) ∧
      (n = 2 ∨ n = 3 ∨ (0x100 ≤ n ∧ n < 0x300) → t.sysRead c x n = v) ∧
      (n = 3 → ∀ e, e < 32 → (t.region c).lfsr[e]? =
        some (let z := v ^^^ BitVec.ofNat 32 (e * 0x9E3779B9); if z = 0 then 1 else z)) ∧
      (n = 4 → t.sysRead c x n = v &&& 1) ∧
      (0x100 ≤ n ∧ n < 0x300 → ∀ m, 0x100 ≤ m → m < 0x300 → m ≠ n → t.sysRead c x m = s.sysRead c x m)

/-- A firing that port P does not suppress completes. BRK passes its token while SYS.BRKEN.EN of its region is 0; while
it is 1 it holds the token in its station, counted as in flight, and takes the exception BRK. TIME sends the two halves
of the reference count. PERF sends the counter it names, counter 7 being the fabric cycles. FEAT sends 1 for the twelve
features the device has, 2 for an absent one with a routine, 0 otherwise. (R208, R209, R210, R211) -/
def Obligations.SystemReads : Prop :=
  ∀ (r : Rec) (s : State), s.cur.go = true →
    (((s.consume 0xF3 r).region s.cur.cluster).brken.getLsbD 0 = false →
      Fires 0xF3 (.brk r) r s (fun v => v = s.cur.a.word)) ∧
    (((s.consume 0xF3 r).region s.cur.cluster).brken.getLsbD 0 = true →
      ∃ t : State, exec (.brk r) s
          = .next (t.takeTrap .brk s.cur.cluster s.cur.station s.cur.tag s.cur.a.word 0) ∧
        (t.region s.cur.cluster).brkHeld
          = ((s.consume 0xF3 r).region s.cur.cluster).brkHeld ++ [(s.cur.station, s.cur.tag, s.cur.a.word)] ∧
        (t.counts s.cur.cluster (tagCtx s.cur.tag)).flight
          = ((s.consume 0xF3 r).counts s.cur.cluster (tagCtx s.cur.tag)).flight + 1) ∧
    (∃ lo hi : Word, exec (.time r) s
        = .next (((s.consume 0xF6 r).emit r.t0 (.narrow lo)).emitTag r.t1 (.narrow hi) s.cur.tag) ∧
      lo.toNat + 2 ^ 32 * hi.toNat = (s.consume 0xF6 r).refCount % 2 ^ 64) ∧
    Fires 0xF7 (.perf r) r s (fun v =>
      v = if s.cur.b.word = 7 then BitVec.ofNat 32 (s.consume 0xF7 r).cycle
        else ((s.consume 0xF7 r).region s.cur.cluster).perf.getD s.cur.b.word.toNat 0) ∧
    Fires 0xF8 (.feat r) r s (fun v =>
      (s.cur.b.word.toNat < 12 → v = 1) ∧
      (12 ≤ s.cur.b.word.toNat →
        v = if ((s.consume 0xF8 r).region s.cur.cluster).features.contains s.cur.b.word.toNat then 2 else 0))

/-- ADD, SUB, MUL, MULHS, MULHN, MINS, MAXS, MINN, MAXN and ABS complete when port P does not suppress them. In every
type each lane of the result is the exact result of R179 or R182 modulo 2^w, and an unpacked result is extended by its
sign. (R179, R182) -/
def Obligations.IntegerArithmetic : Prop :=
  ∀ (r : Rec) (s : State), s.cur.go = true →
    let t := laneType r.fmt
    let m : Int := 2 ^ t.w
    let x := intAt t s.cur.a.word
    let y := intAt t s.cur.b.word
    let nx := bitsAt t s.cur.a.word
    let ny := bitsAt t s.cur.b.word
    Fires 0x10 (.add r) r s (fun v => Lanes t v (fun n => (bitsAt t v n : Int) = (x n + y n) % m)) ∧
    Fires 0x11 (.sub r) r s (fun v => Lanes t v (fun n => (bitsAt t v n : Int) = (x n - y n) % m)) ∧
    Fires 0x14 (.mul r) r s (fun v => Lanes t v (fun n => (bitsAt t v n : Int) = (x n * y n) % m)) ∧
    Fires 0x15 (.mulhs r) r s (fun v => Lanes t v (fun n => (bitsAt t v n : Int) = (x n * y n / m) % m)) ∧
    Fires 0x16 (.mulhn r) r s (fun v => Lanes t v (fun n => bitsAt t v n = nx n * ny n / 2 ^ t.w)) ∧
    Fires 0x1B (.abs r) r s (fun v => Lanes t v (fun n => (bitsAt t v n : Int) = ((x n).natAbs : Int) % m)) ∧
    Fires 0x1C (.mins r) r s (fun v => Lanes t v (fun n => intAt t v n = min (x n) (y n))) ∧
    Fires 0x1D (.maxs r) r s (fun v => Lanes t v (fun n => intAt t v n = max (x n) (y n))) ∧
    Fires 0x1E (.minn r) r s (fun v => Lanes t v (fun n => bitsAt t v n = min (nx n) (ny n))) ∧
    Fires 0x1F (.maxn r) r s (fun v => Lanes t v (fun n => bitsAt t v n = max (nx n) (ny n)))

/-- ADDC and SUBB complete when port P does not suppress them. With operands read as natural numbers of w bits and bit 0
of c as the carry or borrow in (0 where port C is unused), ADDC sends the sum modulo 2^w, extended, to target 0 and the
carry to target 1, and SUBB the difference and the borrow. (R180) -/
def Obligations.CarryChains : Prop :=
  ∀ (r : Rec) (s : State), s.cur.go = true → (laneType r.fmt).packed = false →
    let t := laneType r.fmt
    let x := bitsAt t s.cur.a.word 0
    let y := bitsAt t s.cur.b.word 0
    let cin := if s.cur.hasC = true ∧ s.cur.c.word.getLsbD 0 = true then 1 else 0
    (∃ v k : Word, exec (.addc r) s
        = .next (((s.consume 0x12 r).emit r.t0 (.narrow v)).emitTag r.t1 (.narrow k) s.cur.tag) ∧
      bitsAt t v 0 + 2 ^ t.w * k.toNat = x + y + cin ∧ Lanes t v (fun _ => True)) ∧
    (∃ v k : Word, exec (.subb r) s
        = .next (((s.consume 0x13 r).emit r.t0 (.narrow v)).emitTag r.t1 (.narrow k) s.cur.tag) ∧
      (bitsAt t v 0 : Int) = ((x : Int) - y - cin) % 2 ^ t.w ∧ k = (if x < y + cin then 1 else 0) ∧
      Lanes t v (fun _ => True))

/-- DIVS, DIVN, REMS and REMN complete when port P does not suppress them, and never trap. Division truncates towards
zero and a = q b + rem holds modulo 2^w wherever b is not 0; the remainder is smaller than b and takes the sign of a;
division by 0 gives the quotient of the table of R133 and the dividend as remainder; the smallest integer divided by -1
gives itself and remainder 0. (R133, R181) -/
def Obligations.IntegerDivision : Prop :=
  ∀ (r : Rec) (s : State), s.cur.go = true → (laneType r.fmt).packed = false →
    let t := laneType r.fmt
    let x := intAt t s.cur.a.word 0
    let y := intAt t s.cur.b.word 0
    let nx := bitsAt t s.cur.a.word 0
    let ny := bitsAt t s.cur.b.word 0
    Fires 0x17 (.divs r) r s (fun q => Lanes t q (fun _ => True) ∧
      (y ≠ 0 → intAt t q 0 = if x = -(2 ^ (t.w - 1)) ∧ y = -1 then x else x.tdiv y) ∧
      (y = 0 → intAt t q 0 = if 0 ≤ x then -1 else 1)) ∧
    Fires 0x19 (.rems r) r s (fun m => Lanes t m (fun _ => True) ∧
      (y ≠ 0 → intAt t m 0 = x.tmod y ∧ (intAt t m 0).natAbs < y.natAbs ∧ 0 ≤ intAt t m 0 * x) ∧
      (y = 0 → intAt t m 0 = x)) ∧
    Fires 0x18 (.divn r) r s (fun q => Lanes t q (fun _ => True) ∧
      bitsAt t q 0 = if ny = 0 then 2 ^ t.w - 1 else nx / ny) ∧
    Fires 0x1A (.remn r) r s (fun m => Lanes t m (fun _ => True) ∧
      bitsAt t m 0 = if ny = 0 then nx else nx % ny)

/-- AND, OR, XOR, ANDN, NOT, SHL, SHR, SAR, ROL and ROR complete when port P does not suppress them. Bit j of each lane
of the result is the bit that R183 and R184 give, with the count taken modulo the lane width. (R132, R183, R184) -/
def Obligations.LogicAndShifts : Prop :=
  ∀ (r : Rec) (s : State), s.cur.go = true →
    let t := laneType r.fmt
    let w := t.w
    let bit := fun (v : Word) (n j : Nat) => (bitsAt t v n).testBit j
    let x := bit s.cur.a.word
    let y := bit s.cur.b.word
    let k := fun (n : Nat) => bitsAt t s.cur.b.word n % w
    let is := fun (v : Word) (f : Nat → Nat → Bool) => Lanes t v (fun n => ∀ j, j < w → bit v n j = f n j)
    Fires 0x20 (.and r) r s (fun v => is v (fun n j => x n j && y n j)) ∧
    Fires 0x21 (.or r) r s (fun v => is v (fun n j => x n j || y n j)) ∧
    Fires 0x22 (.xor r) r s (fun v => is v (fun n j => x n j != y n j)) ∧
    Fires 0x23 (.andn r) r s (fun v => is v (fun n j => x n j && !y n j)) ∧
    Fires 0x24 (.not r) r s (fun v => is v (fun n j => !x n j)) ∧
    Fires 0x25 (.shl r) r s (fun v => is v (fun n j => decide (k n ≤ j) && x n (j - k n))) ∧
    Fires 0x26 (.shr r) r s (fun v => is v (fun n j => decide (j + k n < w) && x n (j + k n))) ∧
    Fires 0x27 (.sar r) r s (fun v => is v (fun n j => x n (min (j + k n) (w - 1)))) ∧
    Fires 0x28 (.rol r) r s (fun v => is v (fun n j => x n ((j + w - k n) % w))) ∧
    Fires 0x29 (.ror r) r s (fun v => is v (fun n j => x n ((j + k n) % w)))

/-- CLZ, CTZ, POPC and BREV complete when port P does not suppress them. Each lane of CLZ counts the zeros above the
highest one bit and of CTZ those below the lowest, w for 0; POPC counts the one bits; BREV moves bit j to bit w - 1 - j.
(R185) -/
def Obligations.BitCounts : Prop :=
  ∀ (r : Rec) (s : State), s.cur.go = true →
    let t := laneType r.fmt
    let w := t.w
    let x := bitsAt t s.cur.a.word
    Fires 0x2A (.clz r) r s (fun v => Lanes t v (fun n => bitsAt t v n ≤ w ∧
      x n < 2 ^ (w - bitsAt t v n) ∧ (x n ≠ 0 → 2 ^ (w - bitsAt t v n) ≤ 2 * x n) ∧ (x n = 0 → bitsAt t v n = w))) ∧
    Fires 0x2B (.ctz r) r s (fun v => Lanes t v (fun n =>
      (x n = 0 → bitsAt t v n = w) ∧ (x n ≠ 0 → 2 ^ bitsAt t v n ∣ x n ∧ ¬ 2 ^ (bitsAt t v n + 1) ∣ x n))) ∧
    Fires 0x2C (.popc r) r s (fun v => Lanes t v (fun n =>
      bitsAt t v n = ((List.range w).filter (fun j => (x n).testBit j)).length)) ∧
    Fires 0x2D (.brev r) r s (fun v => Lanes t v (fun n =>
      ∀ j, j < w → (bitsAt t v n).testBit j = (x n).testBit (w - 1 - j)))

/-- BFX and BFI complete when port P does not suppress them. With pos and len from the control word and len cut at bit
31, bit j of BFX is bit pos + j of a inside the field, and above it 0, or bit len - 1 of the field for .i32; bit j of
BFI is bit j - pos of b inside the field and bit j of a outside it. (R186) -/
def Obligations.BitFields : Prop :=
  ∀ (r : Rec) (s : State), s.cur.go = true →
    let pos := fun (ctl : Word) => ctl.toNat % 32
    let len := fun (ctl : Word) => min (ctl.toNat / 32 % 32 + 1) (32 - ctl.toNat % 32)
    let a := s.cur.a.word
    let b := s.cur.b.word
    let c := s.cur.c.word
    Fires 0x2E (.bfx r) r s (fun v => ∀ j, j < 32 →
      v.getLsbD j = if j < len b then a.getLsbD (pos b + j)
        else (!r.fmt.getLsbD 1 && a.getLsbD (pos b + len b - 1))) ∧
    Fires 0x2F (.bfi r) r s (fun v => ∀ j, j < 32 →
      v.getLsbD j = if pos c ≤ j ∧ j < pos c + len c then b.getLsbD (j - pos c) else a.getLsbD j)

/-- CEQ, CNE, CLTS, CLES, CLTN, CLEN, CBIT, PAND, POR, PXOR and PNOT complete when port P does not suppress them. Each
lane of a compare is 1 where its relation holds and 0 where it does not; the predicate operations give 0 or 1. (R187,
R188) -/
def Obligations.ComparesAndPredicates : Prop :=
  ∀ (r : Rec) (s : State), s.cur.go = true →
    let t := laneType r.fmt
    let x := intAt t s.cur.a.word
    let y := intAt t s.cur.b.word
    let nx := bitsAt t s.cur.a.word
    let ny := bitsAt t s.cur.b.word
    let a := s.cur.a.word
    let b := s.cur.b.word
    let one := fun (q : Bool) (v : Word) => v = if q then 1 else 0
    Fires 0x30 (.ceq r) r s (fun v => Lanes t v (fun n => bitsAt t v n = if nx n = ny n then 1 else 0)) ∧
    Fires 0x31 (.cne r) r s (fun v => Lanes t v (fun n => bitsAt t v n = if nx n = ny n then 0 else 1)) ∧
    Fires 0x32 (.clts r) r s (fun v => Lanes t v (fun n => bitsAt t v n = if x n < y n then 1 else 0)) ∧
    Fires 0x33 (.cles r) r s (fun v => Lanes t v (fun n => bitsAt t v n = if x n ≤ y n then 1 else 0)) ∧
    Fires 0x34 (.cltn r) r s (fun v => Lanes t v (fun n => bitsAt t v n = if nx n < ny n then 1 else 0)) ∧
    Fires 0x35 (.clen r) r s (fun v => Lanes t v (fun n => bitsAt t v n = if nx n ≤ ny n then 1 else 0)) ∧
    Fires 0x36 (.cbit r) r s (one (a.getLsbD (b.toNat % 32))) ∧
    Fires 0x37 (.pand r) r s (one (a.getLsbD 0 && b.getLsbD 0)) ∧
    Fires 0x38 (.por r) r s (one (a.getLsbD 0 || b.getLsbD 0)) ∧
    Fires 0x39 (.pxor r) r s (one (a.getLsbD 0 != b.getLsbD 0)) ∧
    Fires 0x3A (.pnot r) r s (one (!a.getLsbD 0))

/-- LEA, SEXT, ZEXT, PACK2, PACK4, UNPK, SWZ, ADDP, SUBP, AVGP and ABSDP complete when port P does not suppress them,
with the results of R189 to R194 in every lane. (R189, R190, R191, R192, R193, R194) -/
def Obligations.AddressBytePacked : Prop :=
  ∀ (r : Rec) (s : State), s.cur.go = true →
    let t := laneType r.fmt
    let a := s.cur.a.word
    let b := s.cur.b.word
    let m := b.toNat % 32
    let half := fun (v : Word) (n : Nat) => v.toNat / 2 ^ (16 * n) % 2 ^ 16
    let byte := fun (v : Word) (n : Nat) => v.toNat / 2 ^ (8 * n) % 2 ^ 8
    let clamp := fun (w : Nat) (z : Int) =>
      if t.natural then max 0 (min z (2 ^ w - 1)) else max (-(2 ^ (w - 1))) (min z (2 ^ (w - 1) - 1))
    let at16 := fun (v : Nat) => if t.natural then (v : Int) else toSigned 16 v
    let at8 := fun (v : Nat) => if t.natural then (v : Int) else toSigned 8 v
    let whole := fun (v : Word) => if t.natural then (v.toNat : Int) else v.toInt
    let x := fun (n : Nat) => if t.natural then (bitsAt t a n : Int) else intAt t a n
    let y := fun (n : Nat) => if t.natural then (bitsAt t b n : Int) else intAt t b n
    let res := fun (v : Word) (n : Nat) => if t.natural then (bitsAt t v n : Int) else intAt t v n
    Fires 0x40 (.lea r) r s (fun v => v = a + b * (if t.w = 32 then 4 else if t.w = 16 then 2 else 1)) ∧
    Fires 0x41 (.sext r) r s (fun v => ∀ j, j < 32 →
      v.getLsbD j = if m = 0 ∨ j < m then a.getLsbD j else a.getLsbD (m - 1)) ∧
    Fires 0x42 (.zext r) r s (fun v => ∀ j, j < 32 → v.getLsbD j = (decide (m = 0 ∨ j < m) && a.getLsbD j)) ∧
    Fires 0x43 (.pack2 r) r s (fun v =>
      at16 (half v 0) = clamp 16 (whole a) ∧ at16 (half v 1) = clamp 16 (whole b)) ∧
    Fires 0x44 (.pack4 r) r s (fun v => ∀ n, n < 4 →
      at8 (byte v n) = clamp 8 (at16 (half (if n < 2 then a else b) (n % 2)))) ∧
    (t.w = 16 → Fires 0x45 (.unpk r) r s (fun v => whole v = at16 (half a (b.toNat % 2)))) ∧
    (t.w = 8 → Fires 0x45 (.unpk r) r s (fun v => ∀ n, n < 2 →
      at16 (half v n) = at8 (byte a (2 * (b.toNat % 2) + n)))) ∧
    Fires 0x46 (.swz r) r s (fun v => ∀ n, n < 4 →
      byte v n = if b.getLsbD (8 + n) then 0 else byte a (b.toNat / 2 ^ (2 * n) % 4)) ∧
    (t.packed = true →
      Fires 0x47 (.addp r) r s (fun v => ∀ n, n < t.lanes → res v n = clamp t.w (x n + y n)) ∧
      Fires 0x48 (.subp r) r s (fun v => ∀ n, n < t.lanes → res v n = clamp t.w (x n - y n)) ∧
      Fires 0x49 (.avgp r) r s (fun v => ∀ n, n < t.lanes → res v n = (x n + y n + 1) / 2) ∧
      Fires 0x4A (.absdp r) r s (fun v => ∀ n, n < t.lanes → bitsAt t v n = (x n - y n).natAbs))

/-- For every format and packing that a PE accepts, FADD, FSUB, FMUL, FFMA, FFMS, FDIV, FSQRT, FRCP, FRSQ, FEXP2,
FROUND, FMIN and FMAX complete when port P does not suppress them, and each lane of the result is the exact result of
the operation rounded once to the format under the mode of F0[3:1], with zeros above the lanes. That FEXP2 is rounded
from the enclosure of exp2Bits is the model's choice (log 11). (R138, R195, R196, R197, R203) -/
def Obligations.FloatArithmetic : Prop :=
  ∀ (r : Rec) (s : State), s.cur.go = true → PeFloat r →
    let code := r.fmt.toNat
    let x := numAt code s.cur.a.word
    let y := numAt code s.cur.b.word
    let z := numAt code s.cur.c.word
    let rnd := fun (e : Exact) => roundTo code r.rnd false 0 e
    let gives := fun (op : Nat) (i : Instr) (f : Nat → Nat) => Fires op i r s (fun v => FLanes code (r.flags.getLsbD 0) v f)
    gives 0x50 (.fadd r) (fun n => rnd ((x n).add r.rnd (y n))) ∧
    gives 0x51 (.fsub r) (fun n => rnd ((x n).add r.rnd (y n).negate)) ∧
    gives 0x52 (.fmul r) (fun n => rnd ((x n).mul (y n))) ∧
    gives 0x53 (.ffma r) (fun n => rnd (((x n).mul (y n)).add r.rnd (z n))) ∧
    gives 0x54 (.ffms r) (fun n => rnd (((x n).mul (y n)).add r.rnd (z n).negate)) ∧
    gives 0x5A (.fdiv r) (fun n => rnd ((x n).div (y n))) ∧
    gives 0x5B (.fsqrt r) (fun n => rnd (x n).sqrt) ∧
    gives 0x5C (.frcp r) (fun n => rnd (x n).recip) ∧
    gives 0x5D (.frsq r) (fun n => rnd (x n).rsqrt) ∧
    gives 0x5F (.fexp2 r) (fun n =>
      exp2Bits code r.rnd 0 (encAt code s.cur.a.word n) % 2 ^ (floatFormat code).bits) ∧
    gives 0x63 (.fround r) (fun n => rnd ((x n).integral r.rnd)) ∧
    gives 0x55 (.fmin r) (fun n => rnd ((x n).minimum (y n))) ∧
    gives 0x56 (.fmax r) (fun n => rnd ((x n).maximum (y n)))

/-- For every format and packing that a PE accepts, a lane of FADD, FSUB, FMUL, FFMA, FFMS, FDIV, FSQRT, FRCP, FRSQ,
FEXP2, FABS, FNEG and FROUND with a NaN operand is the canonical NaN of the format, so is a lane of a sum of opposite
infinities, a product of an infinity and a zero, a quotient of two zeros or two infinities and a root below zero, and a
non-zero finite value over zero gives the infinity of the right sign. Each of them completes. (R136, R137) -/
def Obligations.FloatSpecials : Prop :=
  ∀ (r : Rec) (s : State), s.cur.go = true → PeFloat r →
    let code := r.fmt.toNat
    let x := numAt code s.cur.a.word
    let y := numAt code s.cur.b.word
    let z := numAt code s.cur.c.word
    let nan := fun (op : Nat) (i : Instr) (bad : Nat → Prop) => Fires op i r s (fun v =>
      ∀ n, n < (if r.flags.getLsbD 0 then 2 else 1) → bad n → encAt code v n = canonicalNaN code)
    nan 0x50 (.fadd r) (fun n => x n = .nan ∨ y n = .nan ∨ ∃ k, x n = .inf k ∧ y n = .inf (!k)) ∧
    nan 0x51 (.fsub r) (fun n => x n = .nan ∨ y n = .nan ∨ ∃ k, x n = .inf k ∧ y n = .inf k) ∧
    nan 0x52 (.fmul r) (fun n => x n = .nan ∨ y n = .nan ∨
      (∃ k, x n = .inf k ∧ (y n).isZero = true) ∨ (∃ k, y n = .inf k ∧ (x n).isZero = true)) ∧
    nan 0x53 (.ffma r) (fun n => x n = .nan ∨ y n = .nan ∨ z n = .nan) ∧
    nan 0x54 (.ffms r) (fun n => x n = .nan ∨ y n = .nan ∨ z n = .nan) ∧
    nan 0x5A (.fdiv r) (fun n => x n = .nan ∨ y n = .nan ∨ ((x n).isZero = true ∧ (y n).isZero = true) ∨
      ∃ j k, x n = .inf j ∧ y n = .inf k) ∧
    nan 0x5B (.fsqrt r) (fun n => x n = .nan ∨ x n = .inf true ∨ ∃ m e k, x n = .fin true m e k ∧ m ≠ 0) ∧
    nan 0x5C (.frcp r) (fun n => x n = .nan) ∧
    nan 0x5D (.frsq r) (fun n => x n = .nan ∨ x n = .inf true ∨ ∃ m e k, x n = .fin true m e k ∧ m ≠ 0) ∧
    nan 0x5F (.fexp2 r) (fun n => x n = .nan) ∧
    nan 0x57 (.fabs r) (fun n => x n = .nan) ∧
    nan 0x58 (.fneg r) (fun n => x n = .nan) ∧
    nan 0x63 (.fround r) (fun n => x n = .nan) ∧
    Fires 0x5A (.fdiv r) r s (fun v => ∀ n j m e, n < (if r.flags.getLsbD 0 then 2 else 1) →
      x n = .fin j m e false → m ≠ 0 → (y n).isZero = true →
      numAt code v n = .inf (j != (y n).neg?))

/-- For every format and packing that a PE accepts these operations complete when port P does not suppress them. FMIN
and FMAX return the other operand where exactly one is NaN, the canonical NaN where both are, and order -0 below +0.
FABS clears the sign bit and FNEG inverts it, but for a NaN. FCMP gives exactly one of the codes 1, 2, 4, 8: 8 where an
operand is NaN, 2 for zeros of either sign. FCLASS sets exactly one bit, that of the class of the encoding. The bits
above the lanes are zero. (R197, R198, R199) -/
def Obligations.FloatCompareAndClass : Prop :=
  ∀ (r : Rec) (s : State), s.cur.go = true → PeFloat r →
    let code := r.fmt.toNat
    let top := 2 ^ ((floatFormat code).bits - 1)
    let ea := encAt code s.cur.a.word
    let x := numAt code s.cur.a.word
    let y := numAt code s.cur.b.word
    let gives := fun (op : Nat) (i : Instr) (p : Nat → Nat → Prop) => Fires op i r s (fun v =>
      (∀ n, n < (if r.flags.getLsbD 0 then 2 else 1) → p n (encAt code v n)) ∧
      v.toNat < 2 ^ ((floatFormat code).bits * (if r.flags.getLsbD 0 then 2 else 1)))
    gives 0x55 (.fmin r) (fun n q => (x n = .nan → decodeFloat code q = y n) ∧ (y n = .nan → decodeFloat code q = x n) ∧
      (x n ≠ .nan → y n ≠ .nan → decodeFloat code q = if (y n).less true (x n) then y n else x n)) ∧
    gives 0x56 (.fmax r) (fun n q => (x n = .nan → decodeFloat code q = y n) ∧ (y n = .nan → decodeFloat code q = x n) ∧
      (x n ≠ .nan → y n ≠ .nan → decodeFloat code q = if (x n).less true (y n) then y n else x n)) ∧
    gives 0x57 (.fabs r) (fun n q => x n ≠ .nan → q = ea n % top) ∧
    gives 0x58 (.fneg r) (fun n q => x n ≠ .nan → q = if ea n < top then ea n + top else ea n - top) ∧
    gives 0x59 (.fcmp r) (fun n q =>
      (q = 1 ∨ q = 2 ∨ q = 4 ∨ q = 8) ∧ (q = 8 ↔ (x n = .nan ∨ y n = .nan)) ∧
      (x n ≠ .nan → y n ≠ .nan → (q = 1 ↔ (x n).less false (y n) = true) ∧ (q = 4 ↔ (y n).less false (x n) = true)) ∧
      ((x n).isZero = true → (y n).isZero = true → q = 2)) ∧
    gives 0x5E (.fclass r) (fun n q =>
      let e := ea n / 2 ^ (floatFormat code).man % 2 ^ (floatFormat code).exp
      let m := ea n % 2 ^ (floatFormat code).man
      let neg := top ≤ ea n
      let all := 2 ^ (floatFormat code).exp - 1
      q = if e = all ∧ m ≠ 0 then 2 ^ 8
        else if e = all then (if neg then 1 else 2 ^ 7)
        else if e ≠ 0 then (if neg then 2 else 2 ^ 6)
        else if m ≠ 0 then (if neg then 2 ^ 2 else 2 ^ 5)
        else (if neg then 2 ^ 3 else 2 ^ 4))

/-- In each of the six floating formats and under each of the five rounding modes, rounding the value of an encoding
that is no NaN gives that encoding back, zeros and infinities with their signs included, whatever the 16-bit stochastic
draw is. (R134, R138, R143) -/
def Obligations.ExactResultsAreKept : Prop :=
  ∀ (code mode draw v : Nat) (sat : Bool), code ≤ 5 → mode ≤ 4 → draw < 65536 → v < 2 ^ (floatFormat code).bits →
    decodeFloat code v ≠ .nan → roundTo code mode sat draw (decodeFloat code v) = v

/-- CVTIF, CVTFI and CVTFF complete when port P does not suppress them. CVTFI gives 0 for NaN, the maximum or minimum of
its type for an infinity, and otherwise the value rounded to an integer under the mode and clamped to the type,
extended. CVTIF of an integer gives the conversion of that integer, read by its type from the low bits. CVTFF converts
each lane. That a source just above Max gives what the overflow column gives, before any rounding, is the model's
reading of R147 (log 72). (R147, R201, R202, R203) -/
def Obligations.ScalarConversions : Prop :=
  ∀ (r : Rec) (s : State), s.cur.go = true →
    let src := r.src
    let t := laneType r.fmt
    let lo : Int := if t.natural then 0 else -(2 ^ (t.w - 1))
    let hi : Int := if t.natural then 2 ^ t.w - 1 else 2 ^ (t.w - 1) - 1
    let x := numAt src s.cur.a.word 0
    let it := laneType (BitVec.ofNat 4 src)
    let int : Int := if it.natural then (bitsAt it s.cur.a.word 0 : Int) else intAt it s.cur.a.word 0
    (t.packed = false → Fires 0x61 (.cvtfi r) r s (fun v => Lanes t v (fun _ =>
      let res : Int := if t.natural then (bitsAt t v 0 : Int) else intAt t v 0
      (x = .nan → res = 0) ∧ (x = .inf false → res = hi) ∧ (x = .inf true → res = lo) ∧
      (∀ neg m e k, x = .fin neg m e k →
        res = max lo (min hi (if neg then -(roundAt r.rnd neg m e k 0 0 : Int) else (roundAt r.rnd neg m e k 0 0 : Int))))))) ∧
    Fires 0x60 (.cvtif r) r s (fun v =>
      v = BitVec.ofNat 32 (convertTo r.fmt.toNat r.rnd 0 (.fin (decide (int < 0)) int.natAbs 0 false)).1) ∧
    (r.fmt.toNat ≤ 2 → src ≤ 2 → (r.flags.getLsbD 0 = true → r.fmt.toNat ≠ 0 ∧ src ≠ 0) →
      Fires 0x62 (.cvtff r) r s (fun v => FLanes r.fmt.toNat (r.flags.getLsbD 0) v (fun n =>
        (convertTo r.fmt.toNat r.rnd 0 (numAt src s.cur.a.word n)).1)))

/-- In the four formats that a vector element accepts, VADD, VSUB, VMUL, VFMA, VRCP, VRSQ, VMIN, VMAX, VABS, VNEG, VCMP
and VSEL complete when port P does not suppress them. Each lane is the exact result rounded once under the mode, with
operand B the scalar where BS is 1 (not VABS, VNEG, VSEL). Under .rsr the register of the element steps once per lane in
ascending order and each lane is rounded with its own draw; under the other modes the register is unchanged. VCMP gives
all ones where the relation is in REL; VSEL copies lanes unchanged. (R139, R144, R145, R270, R271, R272, R273, R274) -/
def Obligations.VectorArithmetic : Prop :=
  ∀ (r : Rec) (s : State), s.cur.go = true → r.fmt.toNat ≤ 3 →
    let code := r.fmt.toNat
    let n := lanesOf code
    let x := laneAt code s.cur.a.bits
    let yb := laneAt code s.cur.b.bits
    let y := fun (j : Nat) => if r.flags.getLsbD 0 then scalarOf code s.cur.b.word else yb j
    let z := laneAt code s.cur.c.bits
    let d := fun (op j : Nat) => drawAt (s.consume op r) r.rnd j
    let e := decodeFloat code
    let rounded := fun (op : Nat) (i : Instr) (f : Nat → Exact) => VFires op i r s r.rnd n (fun v =>
      ∀ j, j < n → laneAt code v j = roundTo code r.rnd false (d op j) (f j))
    let plain := fun (op : Nat) (i : Instr) (f : Nat → Nat) => VFires op i r s 0 0 (fun v => ∀ j, j < n → laneAt code v j = f j)
    rounded 0xC0 (.vadd r) (fun j => (e (x j)).add r.rnd (e (y j))) ∧
    rounded 0xC1 (.vsub r) (fun j => (e (x j)).add r.rnd (e (y j)).negate) ∧
    rounded 0xC2 (.vmul r) (fun j => (e (x j)).mul (e (y j))) ∧
    rounded 0xC3 (.vfma r) (fun j => ((e (x j)).mul (e (y j))).add r.rnd (e (z j))) ∧
    rounded 0xCC (.vrcp r) (fun j => (e (x j)).recip) ∧
    rounded 0xCD (.vrsq r) (fun j => (e (x j)).rsqrt) ∧
    plain 0xC4 (.vmin r) (fun j => roundTo code r.rnd false 0 ((e (x j)).minimum (e (y j)))) ∧
    plain 0xC5 (.vmax r) (fun j => roundTo code r.rnd false 0 ((e (x j)).maximum (e (y j)))) ∧
    plain 0xC6 (.vabs r) (fun j => if e (x j) = .nan then canonicalNaN code else x j % 2 ^ (wideBits code - 1)) ∧
    plain 0xC7 (.vneg r) (fun j => if e (x j) = .nan then canonicalNaN code
      else if x j < 2 ^ (wideBits code - 1) then x j + 2 ^ (wideBits code - 1) else x j - 2 ^ (wideBits code - 1)) ∧
    plain 0xC8 (.vcmp r) (fun j =>
      if (e (x j)).relation (e (y j)) &&& (r.sel % 16) = 0 then 0 else 2 ^ wideBits code - 1) ∧
    plain 0xC9 (.vsel r) (fun j => if z j = 0 then yb j else x j)

/-- In the four formats of a vector element, VEXP2, VLOG2, VTANH and VSIGM complete when port P does not suppress them,
with one draw of the register per lane under .rsr. In every lane a NaN gives the canonical NaN, and zeros and infinities
give the values of the table of R272; VLOG2 of a negative value is the canonical NaN. Every other lane is the value of
the function, rounded under the mode with its own draw. That its bits are those that the enclosures of exp2Bits,
log2Bits, tanhBits and sigmBits give is the model's choice (log 11). (R272, R145) -/
def Obligations.VectorFunctions : Prop :=
  ∀ (r : Rec) (s : State), s.cur.go = true → r.fmt.toNat ≤ 3 →
    let code := r.fmt.toNat
    let n := lanesOf code
    let x := fun (j : Nat) => decodeFloat code (laneAt code s.cur.a.bits j)
    let one := roundTo code r.rnd false 0 (.fin false 1 0 false)
    let half := roundTo code r.rnd false 0 (.fin false 1 (-1) false)
    let f := fun (op : Nat) (i : Instr) (g : Nat → Nat → Nat) (p : Nat → Nat → Prop) => VFires op i r s r.rnd n (fun v =>
      ∀ j, j < n → laneAt code v j
          = g (drawAt (s.consume op r) r.rnd j) (laneAt code s.cur.a.bits j) % 2 ^ wideBits code ∧
        (x j = .nan → laneAt code v j = canonicalNaN code) ∧ p j (laneAt code v j))
    f 0xCA (.vexp2 r) (exp2Bits code r.rnd) (fun j q => ((x j).isZero = true → q = one) ∧ (x j = .inf true → q = 0) ∧
      (x j = .inf false → q = infinityBits code)) ∧
    f 0xCB (.vlog2 r) (log2Bits code r.rnd) (fun j q =>
      ((x j).isZero = true → q = signBit code true + infinityBits code) ∧ (x j = .inf true → q = canonicalNaN code) ∧
      (∀ m e k, x j = .fin true m e k → m ≠ 0 → q = canonicalNaN code) ∧ (x j = .inf false → q = infinityBits code)) ∧
    f 0xCE (.vtanh r) (tanhBits code r.rnd) (fun j q =>
      (∀ m e k, x j = .fin k m e false → m = 0 → q = signBit code k) ∧
      (∀ k, x j = .inf k → q = signBit code k + one)) ∧
    f 0xCF (.vsigm r) (sigmBits code r.rnd) (fun j q => ((x j).isZero = true → q = half) ∧ (x j = .inf true → q = 0) ∧
      (x j = .inf false → q = one))

/-- VPERM, VBCAST, VSHUF in its six modes, VSPLAT, VIOTA of integers, VPACK and VUNPK complete when port P does not
suppress them, with the lanes that the rules of each name and zeros in the lanes of VPACK and VUNPK beyond those moved.
VIOTA of the format sums the scalar and the lane number, rounded once. (R270, R276, R277, R278, R280) -/
def Obligations.VectorMoves : Prop :=
  ∀ (r : Rec) (s : State), s.cur.go = true →
    let code := r.fmt.toNat
    let n := lanesOf code
    let a := laneAt code s.cur.a.bits
    let b := laneAt code s.cur.b.bits
    let ab := fun (j : Nat) => if j < n then a j else b (j - n)
    let mode := r.sel % 8
    let k := r.sel / 16 % 128
    let m := n / 2 ^ (r.sel % 4 + 1)
    let p := r.sel / 4 % 8
    let plain := fun (op : Nat) (i : Instr) (f : Nat → Nat) => VFires op i r s 0 0 (fun v => ∀ j, j < n → laneAt code v j = f j)
    (code ≤ 3 →
      plain 0xD2 (.vperm r) (fun j => a (b j % n)) ∧
      plain 0xD3 (.vbcast r) (fun _ => a (r.sel % 64)) ∧
      (mode ≤ 1 → plain 0xD4 (.vshuf r) (fun j =>
        let src := (if mode = 1 then n / 2 else 0) + j / 2
        if j % 2 = 0 then a src else b src)) ∧
      (mode = 2 ∨ mode = 3 → plain 0xD4 (.vshuf r) (fun j =>
        if j < n / 2 then a (2 * j + (mode - 2)) else b (2 * (j - n / 2) + (mode - 2)))) ∧
      (mode = 4 → k ≤ n → plain 0xD4 (.vshuf r) (fun j => ab (j + k))) ∧
      (mode = 5 → plain 0xD4 (.vshuf r) (fun j => a (n - 1 - j))) ∧
      plain 0xDB (.vsplat r) (fun _ => scalarOf code s.cur.a.word) ∧
      (r.flags.getLsbD 0 = true →
        plain 0xDA (.viota r) (fun j => (s.cur.a.word.toNat + j) % 2 ^ wideBits code)) ∧
      (r.flags.getLsbD 0 = false → VFires 0xDA (.viota r) r s r.rnd n (fun v => ∀ j, j < n →
        laneAt code v j = roundTo code r.rnd false (drawAt (s.consume 0xDA r) r.rnd j)
          ((decodeFloat code (scalarOf code s.cur.a.word)).add r.rnd (.fin false j 0 false))))) ∧
    (code ≤ 6 → r.sel % 4 ≤ 2 →
      plain 0xD8 (.vpack r) (fun j => if j < m then a j else if j < 2 * m then b (j - m) else 0) ∧
      (p < 2 ^ (r.sel % 4 + 1) → plain 0xD9 (.vunpk r) (fun j => if j < m then a (p * m + j) else 0)))

/-- In the four formats of a vector element VRED and VSCAN complete when port P does not suppress them. VRED gives in
lane 0 the root of the pairwise tree of R151 and +0 in every other lane; VSCAN gives the inclusive scan of R152. ADD is
rounded at each combination under the mode, under .rsr with one draw for each combination, level by level and in
ascending lane order; MIN and MAX do not round and take no draw. That a lane of VSCAN which no combination touches keeps
its bits is the model's choice (log 110). (R139, R145, R151, R152, R275) -/
def Obligations.VectorReductions : Prop :=
  ∀ (r : Rec) (s : State), s.cur.go = true → r.fmt.toNat ≤ 3 → r.sel % 4 ≤ 2 →
    let code := r.fmt.toNat
    let n := lanesOf code
    let l := Nat.log2 n
    let kind := r.sel % 4
    let mode := if kind = 0 then r.rnd else 0
    let e := decodeFloat code
    let f := fun (op d x y : Nat) =>
      if kind = 0 then roundTo code r.rnd false (drawAt (s.consume op r) r.rnd d) ((e x).add r.rnd (e y))
      else if kind = 1 then roundTo code 0 false 0 ((e x).minimum (e y))
      else roundTo code 0 false 0 ((e x).maximum (e y))
    VFires 0xD0 (.vred r) r s mode (n - 1) (fun v =>
      laneAt code v 0 = treeNode (f 0xD0) n (laneAt code s.cur.a.bits) l 0 ∧ ∀ j, 0 < j → j < n → laneAt code v j = 0) ∧
    VFires 0xD1 (.vscan r) r s mode (l * n - (n - 1)) (fun v =>
      ∀ j, j < n → laneAt code v j = scanNode (f 0xD1) n (laneAt code s.cur.a.bits) l j)

/-- In every state each of these completes when port P does not suppress it. VCVT and CVT convert the elements of PART,
VCVT with one draw for each, and leave the rest of the result zero. CVT sends the overflow token to target 1 exactly
where an element saturated: the count of those, the count of NaN elements up to 255 and the largest exponent. VQUANT
sends the encoded elements to target 0 and the scale byte to target 1, and with SMODE 0 the elements to both; SMODE 1
takes the scale byte from c, SMODE 2 the smallest exponent that covers |M|; a NaN in a Q4 block or an exponent of 63
makes it a NaN block. VDEQ gives the decoded elements, scaled, rounded once. CLIP takes each lane to its bound and
canonicalises NaN lanes; that its wide result goes to both targets is the model's reading of R155 (log 71). (R141, R142,
R147, R148, R149, R155, R279, R281, R283, R285, R286) -/
def Obligations.VectorConversions : Prop :=
  ∀ (r : Rec) (s : State), s.cur.go = true →
    let dst := r.fmt.toNat
    let src := r.src
    let nd := lanesOf dst
    let ns := lanesOf src
    let part := r.sel % 8
    let x := fun (j : Nat) => decodeFloat src (laneAt src s.cur.a.bits j)
    let d := fun (op j : Nat) => drawAt (s.consume op r) r.rnd j
    let m := min ns nd
    (dst ≤ 5 → src ≤ 5 → VFires 0xD5 (.vcvt r) r s r.rnd m (fun v => ∀ j, j < nd →
      laneAt dst v j = if j < m then (convertTo dst r.rnd (d 0xD5 j) (x (part * nd + j))).1 else 0)) ∧
    (dst ≤ 5 → src ≤ 5 →
      let el := fun (j : Nat) => convertTo dst r.rnd 0 (x (part * nd + j))
      let sat := ((List.range m).filter (fun j => (el j).2)).length
      ∃ v : Wide, (∀ j, j < nd → laneAt dst v j = if j < m then (el j).1 else 0) ∧
        (sat = 0 → exec (.cvt r) s = .next ((s.consume 0xF0 r).emit r.t0 (.wide v))) ∧
        (sat ≠ 0 → ∃ w : Word,
          exec (.cvt r) s = .next (((s.consume 0xF0 r).emit r.t0 (.wide v)).emitTag r.t1 (.narrow w) s.cur.tag) ∧
          w.toNat % 65536 = sat ∧
          w.toNat / 65536 % 256 = min 255 ((List.range m).filter (fun j => decide (x (part * nd + j) = .nan))).length ∧
          (∀ j n, j < m → x (part * nd + j) = .inf n → w.toNat / 2 ^ 24 = 255) ∧
          ((∀ j n, j < m → x (part * nd + j) ≠ .inf n) →
            (∀ j, j < m → maxExponent (x (part * nd + j)) ≤ w.toNat / 2 ^ 24) ∧
            ∃ j, j < m ∧ w.toNat / 2 ^ 24 = maxExponent (x (part * nd + j))))) ∧
    (dst ≤ 2 → 4 ≤ src → src ≤ 6 → VFires 0xD7 (.vdeq r) r s r.rnd nd (fun v => ∀ j, j < nd →
      let raw := laneAt src s.cur.a.bits (part * nd + j)
      let b := s.cur.c.word.toNat % 256
      (src = 6 → r.sel.testBit 3 = true → laneAt dst v j = roundTo dst r.rnd false (d 0xD7 j) (q4Value raw b)) ∧
      (src ≠ 6 → laneAt dst v j = roundTo dst r.rnd false (d 0xD7 j)
        (if r.sel.testBit 3 then e8m0Scaled (decodeFloat src raw) b else decodeFloat src raw)))) ∧
    (4 ≤ dst → dst ≤ 6 → src ≤ 2 →
      let smode := r.sel / 4 % 4
      let type := r.sel % 4
      ∃ (v : Wide) (b : Nat), b < 256 ∧
        exec (.vquant r) s = .next (
          let t := drawn (s.consume 0xD6 r) r.rnd ns
          if smode = 0 then t.send r (.wide v)
          else (t.emit r.t0 (.wide v)).emitTag r.t1 (.narrow (BitVec.ofNat 32 b)) s.cur.tag) ∧
        (∀ j, ns ≤ j → j < nd → laneAt dst v j = 0) ∧
        (dst ≠ 6 → ∀ j, j < ns → laneAt dst v j =
          if smode ≠ 0 ∧ b = 255 then canonicalNaN dst
          else (convertTo dst r.rnd (d 0xD6 j) (if smode = 0 then x j else e8m0Scaled (x j) (254 - b))).1) ∧
        (dst = 6 → (b % 64 = 63 → v = 0) ∧ ((∃ j, j < ns ∧ x j = .nan) → b % 64 = 63) ∧
          (b % 64 ≠ 63 → ∀ j, j < ns → laneAt 6 v j = (q4Code r.rnd (d 0xD6 j) b (x j)).1)) ∧
        (smode = 1 → (dst ≠ 6 → b = s.cur.c.word.toNat % 256) ∧ (dst = 6 → b / 64 = s.cur.c.word.toNat % 256 / 64 ∧
          ((∀ j, j < ns → x j ≠ .nan) → b = s.cur.c.word.toNat % 256))) ∧
        (smode = 2 →
          let e := if dst = 6 then b % 64 else b
          let top := if dst = 4 then 448 else if dst = 5 then 57344 else [7, 6, 8, 12].getD type 7
          let last := if dst = 6 then 62 else 254
          let bias : Int := if dst = 6 then 32 else 127
          (dst = 6 → b / 64 = type) ∧
          ∀ n k z, decodeFloat 0 s.cur.c.word.toNat = .fin n k z false → (dst = 6 → ∀ j, j < ns → x j ≠ .nan) →
            e ≤ last ∧ (∀ f : Nat, f < e → magLess top ((f : Int) - bias) k z = true) ∧
            (e < last → magLess top ((e : Int) - bias) k z = false))) ∧
    (dst ≤ 5 → VFires 0xF1 (.clip r) r s 0 0 (fun v => ∀ j, j < nd →
      let lane := laneAt dst s.cur.a.bits j
      let u := decodeFloat dst lane
      (u = .nan → laneAt dst v j = canonicalNaN dst) ∧
      (u ≠ .nan → clipBound dst s.cur.b.word = none → laneAt dst v j = lane) ∧
      (u ≠ .nan → ∀ β, clipBound dst s.cur.b.word = some β →
        laneAt dst v j = if (decodeFloat dst β).less false u then β
          else if u.less false (decodeFloat dst β).negate then signBit dst true + β else lane)))

/-- LD, ST, LDA, STL, MNOP, FENCE and PREF of a wave that DRAIN has not closed complete with a request in the wave store
buffer that carries the sequence fields of F7, the address of R214, the width of the access and, for a store, the value
of port B; MNOP and PREF carry a. Where port P suppresses the firing, the request is an MNOP with the same sequence
fields that sends nothing. (R89, R214, R219, R220, R227, R228, R229, R230, R231) -/
def Obligations.OrderedRequests : Prop :=
  ∀ (r : Rec) (s : State), NotDrained r s →
    let w := (laneType r.fmt).w / 8
    (s.cur.go = true →
      Requests 0x70 (.ld r) r s true .load w (fun q => q.fmt = r.fmt ∧ q.silent = false) ∧
      Requests 0x71 (.st r) r s true .store w (fun q => q.b = s.cur.b.word) ∧
      Requests 0x72 (.lda r) r s true .load 128 (fun _ => True) ∧
      Requests 0x73 (.stl r) r s true .store 128 (fun q => wideOf q.data = s.cur.b.bits) ∧
      Requests 0x74 (.mnop r) r s true .mnop 0 (fun q => q.b = s.cur.a.word ∧ q.silent = false) ∧
      Requests 0x75 (.fence r) r s true .fence 0 (fun q =>
        q.acquire = (r.order % 2 == 1) ∧ q.release = decide (2 ≤ r.order)) ∧
      Requests 0x76 (.pref r) r s true (.pref (r.flags.extractLsb' 0 2)) 0 (fun q => q.b = s.cur.a.word)) ∧
    (s.cur.go = false →
      Requests 0x70 (.ld r) r s true .mnop w (fun q => q.silent = true) ∧
      Requests 0x71 (.st r) r s true .mnop w (fun q => q.silent = true) ∧
      Requests 0x72 (.lda r) r s true .mnop 128 (fun q => q.silent = true) ∧
      Requests 0x73 (.stl r) r s true .mnop 128 (fun q => q.silent = true) ∧
      Requests 0x74 (.mnop r) r s true .mnop 0 (fun q => q.silent = true) ∧
      Requests 0x75 (.fence r) r s true .mnop 0 (fun q => q.silent = true) ∧
      Requests 0x76 (.pref r) r s true .mnop 0 (fun q => q.silent = true))

/-- LDU, STU, LDW, STW, PIN, UNPIN, FLUSH, INVAL and the phaser operations PREG, PSIG, PWAIT, PDROP and PSTAT complete
when port P does not suppress them: their request leaves for translation with the address of R214. PSIG carries a
release and PWAIT an acquire. (R214, R232, R235, R236, R249, R250) -/
def Obligations.UnorderedRequests : Prop :=
  ∀ (r : Rec) (s : State), s.cur.go = true →
    let w := (laneType r.fmt).w / 8
    Requests 0x80 (.ldu r) r s false .load w (fun q => q.fmt = r.fmt) ∧
    Requests 0x81 (.stu r) r s false .store w (fun q => q.b = s.cur.b.word) ∧
    Requests 0x82 (.ldw r) r s false .load 128 (fun _ => True) ∧
    Requests 0x83 (.stw r) r s false .store 128 (fun q => wideOf q.data = s.cur.b.bits) ∧
    Requests 0x84 (.pin r) r s false (.pin (r.flags.getLsbD 0)) 0 (fun _ => True) ∧
    Requests 0x85 (.unpin r) r s false (.unpin (r.flags.getLsbD 0)) 0 (fun _ => True) ∧
    Requests 0x86 (.flush r) r s false (.flush (r.flags.getLsbD 0)) 0 (fun _ => True) ∧
    Requests 0x87 (.inval r) r s false (.inval (r.flags.getLsbD 0)) 0 (fun _ => True) ∧
    Requests 0xA6 (.preg r) r s false (.phaser .reg) 128 (fun q => q.b = s.cur.b.word) ∧
    Requests 0xA7 (.psig r) r s false (.phaser .sig) 128 (fun q => q.b = s.cur.b.word ∧ q.release = true) ∧
    Requests 0xA8 (.pwait r) r s false (.phaser .wait) 128 (fun q => q.b = s.cur.b.word ∧ q.acquire = true) ∧
    Requests 0xA9 (.pdrop r) r s false (.phaser .drop) 128 (fun q => q.b = s.cur.b.word) ∧
    Requests 0xAA (.pstat r) r s false (.phaser .stat) 128 (fun _ => True)

/-- AADD, AMINS, AMAXS, AMINN, AMAXN, AAND, AOR, AXOR, AXCHG, ACAS, AFADD, QINIT, QTAKE, QTAKEW, QGIVE, QREAD,
QREAD.local and QPOL complete when port P does not suppress them and DRAIN has not closed their wave. In a block whose
operation count is not zero the request goes to the wave store buffer with its sequence fields, and elsewhere it leaves
unordered; it carries the operands of ports B and C. An atomic has the order of its order code, QINIT, QGIVE and QPOL
are releases, QTAKE, QTAKEW and QREAD acquires. (R219, R237, R242) -/
def Obligations.AtomicAndQuarryRequests : Prop :=
  ∀ (r : Rec) (s : State), s.cur.go = true → NotDrained r s →
    let n := match s.block? s.cur.cluster r.block.toNat with | some b => b.count | none => 0
    let atomic := fun (op : Nat) (i : Instr) (k : AtomicOp) => Requests op i r s (decide (0 < n)) (.atomic k) 4 (fun q =>
      q.b = s.cur.b.word ∧ q.c = s.cur.c.word ∧ q.fmt = r.fmt ∧ q.acquire = (r.order % 2 == 1) ∧
      q.release = decide (2 ≤ r.order))
    let quarry := fun (op : Nat) (i : Instr) (k : QuarryOp) (rel : Bool) =>
      Requests op i r s (decide (0 < n)) (.quarry k) 128 (fun q =>
        q.b = s.cur.b.word ∧ q.acquire = (!rel) ∧ q.release = rel)
    atomic 0x90 (.aadd r) .add ∧ atomic 0x91 (.amins r) .mins ∧ atomic 0x92 (.amaxs r) .maxs ∧
    atomic 0x93 (.aminn r) .minn ∧ atomic 0x94 (.amaxn r) .maxn ∧ atomic 0x95 (.aand r) .and ∧
    atomic 0x96 (.aor r) .or ∧ atomic 0x97 (.axor r) .xor ∧ atomic 0x98 (.axchg r) .xchg ∧
    atomic 0x99 (.acas r) .cas ∧ atomic 0x9A (.afadd r) .fadd ∧
    quarry 0xA0 (.qinit r) .init true ∧ quarry 0xA1 (.qtake r) .take false ∧ quarry 0xA2 (.qtakew r) .takew false ∧
    quarry 0xA3 (.qgive r) .give true ∧ quarry 0xA4 (.qread r) .read false ∧
    quarry 0xA4 (.qreadLocal r) .readLocal false ∧ quarry 0xA5 (.qpol r) .pol true

/-- A firing that port P does not suppress completes. JCFG with an aligned sub-rectangle that holds its cluster installs
it for its context on every JOIN station of its element, leaves the groups of other contexts and elements as they are,
and sends 0; with any other group word it takes ACCESS. JOIN with count 0 takes ILLEGAL, as does one whose count differs
from that of the round it would join. The first arrival of a count above 1 opens a round that counts as one token in
flight, a later one is folded into the part, and the one that reaches the count in a group of its own cluster alone
sends the folded value to both targets and ends the round. (R248, R251, R252) -/
def Obligations.JoinFirings : Prop :=
  ∀ (r : Rec) (s : State), s.cur.go = true →
    let c := s.cur.cluster
    let st := s.cur.station
    let g := s.cur.tag
    let w := s.cur.b.word.extractLsb' 0 10
    let n := (s.cur.b.word.extractLsb' 0 16).toNat
    let u := s.consume 0xAB r
    let mine := fun (e : Round) => e.station = st ∧ e.tag = g
    (0x1300 ≤ st → st < 0x1380 → groupOk (s.rectOf c g) c w = true → ∃ t : State,
      exec (.jcfg r) s = .next (t.sendWord r 0) ∧ Within c (s.consume 0xAC r) t ∧
      ∀ st' g', 0x1300 ≤ st' → st' < 0x1380 → t.groupAt c st' g' =
        if tagCtx g' = tagCtx g ∧ (st' - 0x1300) / 8 = (st - 0x1300) / 8 then w
        else (s.consume 0xAC r).groupAt c st' g') ∧
    (groupOk (s.rectOf c g) c w = false → exec (.jcfg r) s
      = .next ((s.consume 0xAC r).takeTrap .access c st g s.cur.a.word s.cur.b.word)) ∧
    (n = 0 → exec (.join r) s = .next (u.takeTrap .illegal c st g s.cur.a.word s.cur.b.word)) ∧
    (∀ e ∈ (u.region c).rounds, mine e → 0 < e.seen → e.seen < e.count.toNat → n ≠ e.count.toNat →
      (∀ e' ∈ (u.region c).rounds, mine e' → e' = e) →
      exec (.join r) s = .next (u.takeTrap .illegal c st g s.cur.a.word s.cur.b.word)) ∧
    (1 < n → (∀ e ∈ (u.region c).rounds, ¬ mine e) → ∃ t : State,
      exec (.join r) s = .next t ∧ Within c u t ∧ t.agenda = u.agenda ∧
      (t.region c).rounds = (u.region c).rounds ++
        [{ station := st, tag := g, group := u.groupAt c st g, count := BitVec.ofNat 16 n, seen := 1,
           part := if r.flags = 0 then 1 else s.cur.a.word, parts := [], bad := false }] ∧
      (t.counts c (tagCtx g)).flight = (u.counts c (tagCtx g)).flight + 1) ∧
    (∀ e, (u.region c).rounds = [e] → mine e → 0 < e.seen → e.seen + 1 < n → e.count.toNat = n →
      ∃ (t : State) (told : List (BitVec 10)), exec (.join r) s = .next t ∧
      (t.region c).rounds = [{ e with seen := e.seen + 1, part := joined r.flags.toNat e.part s.cur.a.word, told := told }] ∧
      (t.counts c (tagCtx g)).flight = (u.counts c (tagCtx g)).flight ∧ t.mem = u.mem ∧
      (e.bad = false → told = e.told ∧ Within c u t ∧ t.agenda = u.agenda ∧ t.counts c (tagCtx g) = u.counts c (tagCtx g))) ∧
    (∀ e, (u.region c).rounds = [e] → mine e → 0 < e.seen → e.seen + 1 = n → e.count.toNat = n → e.bad = false →
      e.parts = [] → groupClusters (u.rectOf c g) e.group = [c] → u.runs c g = true → u.recAt c st = r → ∃ t : State,
      exec (.join r) s = .next (t.sendWord r (joined r.flags.toNat e.part s.cur.a.word)) ∧ Within c u t ∧
      (t.region c).rounds = [] ∧ (t.counts c (tagCtx g)).flight = (u.counts c (tagCtx g)).flight - 1)

/-- A firing that port P does not suppress completes. CARM sends a request for the 128 bytes of its descriptor. CSET
replaces word B[12:8] of the descriptor of the template that B[5:0] names and sends the status. CFIRE places its index
at the end of the trigger queue, counted as one token in flight and one queue entry, sends 0 and has the queue looked
at. CSTAT changes nothing of the template and sends the status. CCANCEL leaves the template ARMED with CANCELLED, no
copy in flight and no trigger, its descriptor as it stands, and sends the status. (R254, R257, R258, R259) -/
def Obligations.CopyFirings : Prop :=
  ∀ (r : Rec) (s : State), s.cur.go = true →
    let c := s.cur.cluster
    let k := (s.cur.b.word.extractLsb' 0 6).toNat
    let n := (s.cur.b.word.extractLsb' 8 5).toNat
    Requests 0xB0 (.carm r) r s false (.descriptor k) 128 (fun _ => True) ∧
    (n ≤ 27 → ∃ t : State, exec (.cset r) s = .next (t.sendWord r (t.template c k).status) ∧
      Within c (s.consume 0xB1 r) t ∧
      (∀ j, j < 1024 → (t.template c k).desc.getLsbD j = if j / 32 = n then s.cur.a.word.getLsbD (j % 32)
        else (s.template c k).desc.getLsbD j) ∧
      (t.template c k).run = (s.template c k).run ∧ (t.template c k).queue = (s.template c k).queue ∧
      ((t.template c k).state = (s.template c k).state ∨ (t.template c k).state = .error) ∧
      ∀ m, m ≠ k → t.template c m = s.template c m) ∧
    (∃ (t : State) (after : List Nat), exec (.cfire r) s = .next (t.sendWord r 0) ∧ Within c (s.consume 0xB2 r) t ∧
      (t.template c k).queue = (s.template c k).queue ++ [{ index := s.cur.a.word, tag := s.cur.tag, after := after }] ∧
      (t.template c k).state = (s.template c k).state ∧ (t.template c k).desc = (s.template c k).desc ∧
      (t.region c).inUse.getD ((0x13C0 + k) * 8) 0 = ((s.consume 0xB2 r).region c).inUse.getD ((0x13C0 + k) * 8) 0 + 1 ∧
      (t.counts c (tagCtx s.cur.tag)).flight = ((s.consume 0xB2 r).counts c (tagCtx s.cur.tag)).flight + 1 ∧
      .event .copyTrigger { cluster := c, index := k } ∈ t.agenda) ∧
    (∃ t : State, exec (.cstat r) s = .next (t.sendWord r (s.template c k).status) ∧ Within c (s.consume 0xB3 r) t ∧
      ∃ users, t.template c k = { s.template c k with users := users }) ∧
    (∃ t : State, exec (.ccancel r) s = .next (t.sendWord r (t.template c k).status) ∧
      (t.template c k).state = .armed ∧ (t.template c k).err = 7 ∧ (t.template c k).run = none ∧
      (t.template c k).queue = [] ∧ (t.template c k).desc = (s.template c k).desc ∧
      ∀ m, m ≠ k → t.template c m = s.template c m)

/-- CHBIND and CHEXP that port P does not suppress complete: with EXP 0 the binding of the element ends, one that is
saved with a frozen context too; with another EXP and a tag that no other element holds the element binds the tag at
phase 0, in token or in flag mode, CHEXP with a release request that writes 0 to its flag and whose reply is its token;
with a tag that another element holds, or CHEXP with no flag table whatever EXP is, ACCESS is taken. HIN removes the
record at the head of its queue and sends the value with the tag in hand. HOUT appends its value, tag, cluster and node
to the egress ring and sends 0; where the entry lies in a page in hand-over a request writes it at the new home, and 0
is its reply. XSEND with reserved bits or an unknown device takes BAD_TARGET, and otherwise sends a record with the
value and the WAVE and SUB of its tag, counted as export traffic. (R261, R262, R263, R265, R266, R267, R338, R430, R433,
R434, R438) -/
def Obligations.ChannelAndHostNodes : Prop :=
  ∀ (r : Rec) (s : State), s.cur.go = true → Table.wf s.regions = true →
    let c := s.cur.cluster
    let st := s.cur.station
    let g := s.cur.tag
    let a := s.cur.a.word
    let b := s.cur.b.word
    let tag := (b.extractLsb' 0 16).toNat
    let free := ∀ c' st', s.holderOf tag = some (c', st') → c' = c ∧ st' = st
    let ended := fun (u t : State) => Within c { u with saves := t.saves } t ∧
      t.saves = u.saves.map (fun (e : Nat × Saved) => (e.1, e.2.unbind c st))
    let bound := fun (flag : Bool) (u : State) => (u.region c).bindings.get? st
      = some { channel := b.extractLsb' 0 16, exp := a, phase := 0, flag := flag, value := a, tag := g,
               ctx := ((s.ctxAt c (tagCtx g)).map (fun k => k.id)).getD 0 }
    let again : Activity := .event .channelArrival { index := tag }
    (a = 0 → (∃ t, exec (.chbind r) s = .next t ∧ ended (s.consume 0xB5 r) t ∧ (t.region c).bindings.get? st = none) ∧
      (s.regs.flagbase ≠ 0 →
        ∃ t, exec (.chexp r) s = .next t ∧ ended (s.consume 0xB6 r) t ∧ (t.region c).bindings.get? st = none)) ∧
    (a ≠ 0 → free → ∃ t, exec (.chbind r) s = .next t ∧ ended (s.consume 0xB5 r) t ∧ bound false t ∧
      again ∈ t.agenda) ∧
    (a ≠ 0 → free → s.regs.flagbase ≠ 0 → ∃ (u : State) (q : MemReq),
      exec (.chexp r) s = .next (((u.addReq q).dueEvent .pageWalk { id := q.id }).dueOnce again) ∧
      q.id = u.nextId ∧ q.cluster = c ∧ q.station = st ∧ q.tag = g ∧ q.kind = .flagWrite ∧
      q.va = BitVec.ofNat 64 (s.regs.flagbase.toNat + 8 * tag) ∧ q.data = List.replicate 8 0 ∧ q.release = true ∧
      q.result = [.narrow 0] ∧ ended (s.consume 0xB6 r) u ∧ bound true u) ∧
    (a ≠ 0 → ¬ free → exec (.chbind r) s = .next ((s.consume 0xB5 r).takeTrap .access c st g a b)) ∧
    ((a ≠ 0 ∧ ¬ free) ∨ s.regs.flagbase = 0 →
      exec (.chexp r) s = .next ((s.consume 0xB6 r).takeTrap .access c st g a b)) ∧
    (∀ n, n < 8 → st = 0x1910 + n → ∃ t u : State, exec (.hin r) s = .next t ∧ Within c s t ∧
      (t.region c).ingress = ((s.region c).ingress.set n ((s.region c).ingress.getD n []).tail) ∧
      Within c s u ∧ (t = u.send r s.cur.a ∨ t = (u.send r s.cur.a).dueOnce (.fire c st 0))) ∧
    (let u := s.consume 0xB8 r
      let size := 2 ^ (u.regs.egctl.toNat % 16)
      let at_ := u.regs.egbase.toNat + 16 * (u.regs.egprod.toNat % size)
      ∃ rec : List Byte, rec.length = 16 ∧ natOfBytes (rec.take 4) = a.toNat ∧ natOfBytes ((rec.drop 4).take 4) = g.toNat ∧
      rec[8]? = some (BitVec.ofNat 8 c) ∧ rec[9]? = some (BitVec.ofNat 8 (st - 0x1918)) ∧
      rec[15]? = some (BitVec.ofNat 8 (u.regs.egprod.toNat / size % 255 + 1)) ∧
      (u.inLentPage at_ = false → ∃ t : State, exec (.hout r) s = .next (t.sendWord r 0) ∧
        t.regs = { u.regs with egprod := u.regs.egprod + 1 } ∧ { t with regs := u.regs } = u.writePhys at_ rec) ∧
      (u.inLentPage at_ = true → ∃ q : MemReq, exec (.hout r) s = .next ((u.addReq q).dueEvent .pageWalk { id := q.id }) ∧
        q.id = u.nextId ∧ q.cluster = c ∧ q.station = st ∧ q.tag = g ∧ q.kind = .flagWrite ∧ q.va = BitVec.ofNat 64 at_ ∧
        q.data = rec ∧ q.result = [.narrow 0])) ∧
    let d := (b.extractLsb' 0 12).toNat
    let bad := b.toNat / 2 ^ 21 ≠ 0 ∨ s.regs.route.getD d 0 = 0 ∨ d = s.regs.devid.toNat % 4096
    let u := s.consume 0xB9 r
    let sent : IngressRec := { cluster := b.toNat / 2 ^ 12 % 64, node := b.toNat / 2 ^ 18 % 8, value := a,
                               wtag := BitVec.ofNat 32 (g.toNat % 2 ^ 24) }
    (bad → exec (.xsend r) s = .next (u.takeTrap .badTarget c st g a b)) ∧
    (¬ bad → ∃ t, exec (.xsend r) s = .next t ∧ t.nextId = u.nextId + 1 ∧
      t.spanOut = u.spanOut ++ [{ id := u.nextId, device := d, cluster := c, station := st, tag := g, rec0 := sent }] ∧
      (t.counts c (tagCtx g)).exports = (u.counts c (tagCtx g)).exports + 1 ∧ t.mem = u.mem)

/-- TCFG, TLD, TLD.str, TLD.tok, TST, TST.tok, TZERO, TMOV, TTRN, ZLD, ZST, ZZERO and ZCVT that port P does not suppress
complete: their operation joins the order of the tile file with the registers it reads and writes, its addresses,
strides and words, and TLD.str whether its scale plane has an address. TCFG takes ILLEGAL instead for a control word
that is not legal for its register, TLD and TST for a tile with a scale plane in use and port C unused, TLD.tok and
TST.tok for a row word with bits above bit 7. (R287, R290, R294, R295, R296, R297, R298, R299, R300, R301, R312) -/
def Obligations.TileFirings : Prop :=
  ∀ (r : Rec) (s : State), s.cur.go = true →
    let c := s.cur.cluster
    let g := s.cur.tag
    let a := s.cur.a.word
    let b := s.cur.b.word
    let one := if s.cur.station < 0x1200 then r.reg else r.reg1
    let acq := r.flags.getLsbD 2
    let scale : Dword := (s.region c).bases.getD
      ((tagCtx g).toNat * 256 + (s.cur.station - 0x1100) / 8 * 8 + r.sel / 256 % 8) 0 + s.cur.c.word.zeroExtend 64
    let plain := ctrlScaled (s.ctrlOf c r.reg) = false ∨ s.cur.hasC = true
    let illegal := fun (op : Nat) (i : Instr) =>
      exec i s = .next ((s.consume op r).takeTrap .illegal c s.cur.station g a b)
    let legal := if Machine.isAcc one then accWordOk a else tileWordOk a
    (legal = true → Queued 0xE0 (.tcfg r) r s [] [one] false false (.tcfg a)) ∧
    (legal = false → illegal 0xE0 (.tcfg r)) ∧
    (plain → Queued 0xE1 (.tld r) r s [] [r.reg] acq false (.tld (vaFor 0xE1 r s) scale b s.cur.hasC) ∧
      Queued 0xE2 (.tst r) r s [r.reg] [] false acq (.tst (vaFor 0xE2 r s) scale b s.cur.hasC)) ∧
    (¬ plain → illegal 0xE1 (.tld r) ∧ illegal 0xE2 (.tst r)) ∧
    Queued 0xE1 (.tldStr r) r s [r.reg] [] acq false
      (.arm (vaFor 0xE1 r s) scale b ((s.cur.station - 0x1100) / 8) s.cur.hasC) ∧
    (b.toNat < 256 → Queued 0xE1 (.tldTok r) r s [] [r.reg] acq false (.tldTok b s.cur.a.bits) ∧
      Queued 0xE2 (.tstTok r) r s [r.reg] [] false acq (.tstTok b)) ∧
    (256 ≤ b.toNat → illegal 0xE1 (.tldTok r) ∧ illegal 0xE2 (.tstTok r)) ∧
    Queued 0xE3 (.tzero r) r s [] [one] false false .tzero ∧
    Queued 0xE4 (.tmov r) r s [r.reg1] [r.reg2] false false .tmov ∧
    Queued 0xE5 (.ttrn r) r s [r.reg1] [r.reg2] false false .ttrn ∧
    Queued 0xE6 (.zld r) r s [] [r.reg] acq false (.zld (vaFor 0xE6 r s) b) ∧
    Queued 0xE7 (.zst r) r s [r.reg] [] false acq (.zst (vaFor 0xE7 r s) b) ∧
    Queued 0xE8 (.zzero r) r s [] [one] false false .zzero ∧
    Queued 0xE9 (.zcvt r) r s [r.reg1] [r.reg2] false false (.zcvt r.fmt (BitVec.ofNat 4 r.rnd))

/-- Where one operation waits at the tile file of a region that is not halted, in a live context that is no speculation,
with no firing of its cycle still due that would come before it, and the registers it names are full, it begins. TCFG,
TZERO, TLD.tok, TST.tok, TMOV, TTRN, ZZERO and ZCVT leave the registers with the control word and the contents of their
rules, full again, and send their token, which counts as outstanding until it is consumed; TLD.str arms the slot of its
port; TLD, TST, ZLD and ZST leave the register they load empty and send their request for translation. When the last
byte of a load is written the register is full and the completion token is sent. (R288, R290, R294, R297, R298, R299,
R300, R301) -/
def Obligations.RegisterOperations : Prop :=
  ∀ (s : State) (k : Ctx) (o : RegOp),
    let c := s.cur.cluster
    s.ctxAt c (tagCtx o.tag) = some k → k.killed = false → s.specOf c o.tag = none →
    ((s.region c).regOps.find? (fun p => p.id == s.cur.id && p.begun) = some o → o.isMma = false →
      ∃ u : State, exec .tileWriteComplete s = .next (u.answerTo c o.station o.id o.tag (.narrow 0) (.narrow 0)) ∧
        Within c s u ∧ (∀ x ∈ o.writes, u.isFull c x = true) ∧
        (u.region c).regOps = (s.region c).regOps.filter (fun p => p.id != o.id) ∧
        u.counts c (tagCtx o.tag) = s.counts c (tagCtx o.tag)) ∧
    ((s.region c).halted = false → (s.region c).regOps = [o] → o.begun = false → s.early c o = false →
      (∀ x ∈ o.reads ++ o.writes, s.isFull c x = true) →
      let ends := fun (v : Value) (p : State → Prop) => ∃ u : State,
        exec .registerOpBegin s = .next ((u.answerTo c o.station o.id o.tag v v).kickRegisters c) ∧ Within c s u ∧ (u.region c).regOps = [] ∧ p u
      let leaves := fun (va : Dword) (load : Bool) => ∃ (t : State) (q : MemReq), exec .registerOpBegin s = .next t ∧
        t.reqs = s.reqs ++ [q] ∧ q.id = o.id ∧ q.va = va ∧ q.tag = o.tag ∧
        q.kind = (if load then .tileLoad o.id else .tileStore o.id) ∧ .event .pageWalk { id := o.id } ∈ t.agenda ∧
        (∀ x ∈ o.writes, t.isFull c x = false) ∧ t.mem = s.mem
      (∀ d, Machine.isAcc d = false → o.writes = [d] →
        let old := s.tile c d
        (∀ w, o.act = .tcfg w → ends (.narrow 0) (fun u =>
          u.tile c d = { old with ctrl := w &&& 0x000FFFFF#32, full := true })) ∧
        (o.act = .tzero → ends (.narrow 0) (fun u => u.tile c d = { old with bytes := [], plane := [], full := true })) ∧
        (∀ w v, o.act = .tldTok w v → w.getLsbD 7 = false → w.toNat % 128 < ctrlRows old.ctrl → old.bytes.wf = true →
          ends (.narrow 0) (fun u => (u.tile c d).ctrl = old.ctrl ∧ (u.tile c d).plane = old.plane ∧
            (u.tile c d).full = true ∧
            ∀ i, (u.tile c d).bytes.get i = if i / 128 = w.toNat % 128 then wideByte v (i % 128) else old.bytes.get i)) ∧
        (∀ x, o.act = .tmov → o.reads = [x] → ends (.narrow 0) (fun u => u.tile c d = { s.tile c x with full := true })) ∧
        (∀ x, o.act = .ttrn → o.reads = [x] → ctrlScaled (s.tile c x).ctrl = false → tileWordOk (s.tile c x).ctrl = true →
          ctrlRows (s.tile c x).ctrl * elementBits (ctrlFmt (s.tile c x).ctrl) ≤ 1024 →
          ends (.narrow 0) (fun u =>
            let y := u.tile c d
            ctrlFmt y.ctrl = ctrlFmt (s.tile c x).ctrl ∧ ctrlRows y.ctrl = ctrlCols (s.tile c x).ctrl ∧
            ctrlCols y.ctrl = ctrlRows (s.tile c x).ctrl ∧ y.full = true ∧
            ∀ i j, i < ctrlRows (s.tile c x).ctrl → j < ctrlCols (s.tile c x).ctrl →
              tileRaw y.bytes (ctrlFmt y.ctrl) j i = tileRaw (s.tile c x).bytes (ctrlFmt y.ctrl) i j)) ∧
        (∀ x fmt rnd w b, o.act = .zcvt fmt rnd → o.reads = [x] →
          convertedAcc (s.accum c x) fmt.toNat rnd.toNat = some (w, b) →
          ends (.narrow 0) (fun u => u.tile c d = { old with ctrl := w, bytes := b, full := true })) ∧
        (∀ va scale stride, o.act = .tld va scale stride true → leaves va true)) ∧
      (∀ d, Machine.isAcc d = true → o.writes = [d] →
        let old := s.accum c d
        (∀ w, o.act = .tcfg w → ends (.narrow 0) (fun u =>
          u.accum c d = { old with ctrl := w &&& 0x00017FFF#32, full := true })) ∧
        (o.act = .zzero → ends (.narrow 0) (fun u => u.accum c d = { old with bytes := [], full := true })) ∧
        (∀ va stride, o.act = .zld va stride → leaves va true)) ∧
      (∀ x, o.writes = [] → o.reads = [x] →
        (∀ w, Machine.isAcc x = false → o.act = .tstTok w → w.getLsbD 7 = false → w.toNat % 128 < ctrlRows (s.tile c x).ctrl →
          ∃ v : Wide, (∀ i, i < 128 → wideByte v i = (s.tile c x).bytes.get (128 * (w.toNat % 128) + i)) ∧
            ends (.wide v) (fun u => u.tile c x = s.tile c x)) ∧
        (∀ va scale stride p, Machine.isAcc x = false → o.act = .arm va scale stride p true → (s.region c).slots.get? p = none →
          ends (.narrow 0) (fun u => (u.region c).slots.get? p = some {
            station := o.station, tag := o.tag, va := va, scale := scale, stride := stride, ctrl := (s.tile c x).ctrl })) ∧
        (∀ va scale stride, o.act = .tst va scale stride true → leaves va false) ∧
        (∀ va stride, o.act = .zst va stride → leaves va false)))

/-- A firing that port P does not suppress completes. MOP sends its template with the fields that its flags name taken
from a. MSEQ takes ILLEGAL for a COUNT of 0 or a reserved bit, and otherwise sends step 0 and either goes on as an
expansion counted as one token in flight, or ends with COUNT to target 1. MPAIR sends its template as an MMAP token with
its offsets where the partner lies in the rectangle, and takes BAD_TARGET elsewhere. DRAIN closes an open wave by force
and sends a. A control token MMA, or MMAP that an MPAIR sent, on a free MO with fields in range joins the order of the
tile file as reader of its tiles and writer of its accumulator; with a field out of range it is consumed and takes
ILLEGAL. (R100, R101, R212, R303, R307, R308, R309, R310) -/
def Obligations.MatrixTokens : Prop :=
  ∀ (r : Rec) (f : Ctl) (s : State),
    let c := s.cur.cluster
    let st := s.cur.station
    let g := s.cur.tag
    let a := s.cur.a.word
    let b := s.cur.b.word
    (s.cur.go = true →
      Fires 0xEA (.mop r) r s (fun v => ∀ j, j < 32 → v.getLsbD j =
        if r.flags.getLsbD 0 ∧ 20 ≤ j ∧ j < 26 then a.getLsbD (j - 20)
        else if r.flags.getLsbD 1 ∧ 14 ≤ j ∧ j < 20 then a.getLsbD (j - 8)
        else if r.flags.getLsbD 2 ∧ 8 ≤ j ∧ j < 14 then a.getLsbD (j + 4)
        else if r.flags.getLsbD 3 ∧ j = 7 then a.getLsbD 18 else b.getLsbD j) ∧
      (let u := s.consume 0xEB r
       let n := b.toNat % 256
       let bad := n = 0 ∨ b.toNat / 2 ^ 27 ≠ 0
       (bad → exec (.mseq r) s = .next (u.takeTrap .illegal c st g a b)) ∧
       (¬ bad → s.recAt c st = r → ∃ (x : State) (w : Word), StepToken a b 0 w ∧ Within c { u with nextId := u.nextId + 1 } x ∧
          (x.region c).expansions = (u.region c).expansions ++
            [{ id := u.nextId, station := st, template := a, step := b, tag := g, next := 0 }] ∧
          (x.counts c (tagCtx g)).flight = (u.counts c (tagCtx g)).flight + 1 ∧
          exec (.mseq r) s = .next (
            let x := x.emitTo c st r.t0 (.narrow w) g
            if n = 1 then ((x.updRegion c (fun k => { k with expansions := k.expansions.filter (fun e => e.id != u.nextId) })).emitTo
                c st r.t1 (.narrow 1) g).flightDown c g
            else (x.updRegion c (fun k => { k with expansions := k.expansions.map (fun (e : Expansion) =>
                if e.id = u.nextId then { e with next := e.next + 1 } else e) })).dueEvent .mseqStep
                { cluster := c, id := u.nextId }))) ∧
      (let d := r.a.low.extractLsb' 0 8
       let dx := (d.extractLsb' 4 4).toInt
       let dy := (d.extractLsb' 0 4).toInt
       let lies := fun (p : Nat) => (p % 8 : Nat) = (c % 8 : Nat) + dx ∧ (p / 8 : Nat) = (c / 8 : Nat) + dy ∧
         (s.rectOf c g).contains p = true
       let put := fun (x : State) (k : Target) => if k.valid then x.sendToken st
           { cluster := c, station := k.addr.toNat, port := k.port, kind := .paired st d,
             value := .narrow (BitVec.ofNat 32 (2 * 2 ^ 26 + b.toNat % 2 ^ 26)), tag := g } else x
       (∀ p, p < 64 → lies p → exec (.mpair r) s = .next (put (put (s.consume 0xEC r) r.t0) r.t1)) ∧
       ((∀ p, p < 64 → ¬ lies p) →
         exec (.mpair r) s = .next ((s.consume 0xEC r).takeTrap .badTarget c st g a b))) ∧
      (let u := s.consume 0xF9 r
       let blk := b.toNat % 256
       (∀ w, u.wave? c blk g = some w → w.isOpen = true → ∃ (t : State) (w' : Wave),
          exec (.drain r) s = .next (t.send r s.cur.a) ∧ t.wave? c blk g = some w' ∧ w'.isOpen = false ∧
          w'.finished = true ∧ w'.drained = true) ∧
       ((∀ w, u.wave? c blk g = some w → w.isOpen = false) → exec (.drain r) s = .next (u.send r s.cur.a)))) ∧
    (let m := s.cur.id
     let ok := f.zidx.toNat ≤ 15 ∧ f.atile.toNat ≤ 47 ∧ f.btile.toNat ≤ (if f.bstr then 31 else 47) ∧ f.scl.toNat ≤ 2
     let waits := fun (i : Instr) => ∃ (t : State) (o : RegOp), exec i s = .next t ∧
       Within c { s with nextId := s.nextId + 1 } t ∧ Joins s.cycle o (s.region c).regOps (t.region c).regOps ∧
       o.act = .mma m ∧ o.begun = false ∧ o.tag = g ∧ o.station = 0x12C0 + m ∧
       o.writes = [BitVec.ofNat 7 (64 + f.zidx.toNat)] ∧
       o.reads = (BitVec.ofNat 7 f.atile.toNat) :: (if f.bstr then [] else [BitVec.ofNat 7 f.btile.toNat]) ∧
       .event .registerOpBegin { cluster := c } ∈ t.agenda
     let illegal := fun (i : Instr) =>
       exec i s = .next ((s.dropControl c m).takeTrap .illegal c (0x12C0 + m) g s.cur.word 0)
     (s.mo c m).run = none → (∀ o ∈ (s.region c).regOps, o.act ≠ .mma m) →
     (ok → waits (.mma f) ∧ (s.cur.pair.isSome = true → waits (.mmap f)) ∧ (s.cur.pair = none → illegal (.mmap f))) ∧
     (¬ ok → illegal (.mma f) ∧ illegal (.mmap f)))

/-- When an MMA completes, each element of its accumulator is the chunked sum of the products of its operands, starting
from the element of the shadow where ACC is set, the control token goes to F1 of the control port record and the MO is
free. When both halves of a pair have begun and agree, each accumulator receives the sum over both halves, the lower
cluster first, and both MOs are free; halves that do not agree restore their accumulators and take ILLEGAL. A streamed
fault leaves the operation with its token, tiles and slot, restores its accumulator from the shadow and posts its event.
A step of an expansion sends its token and either waits for the next or ends with COUNT. (R150, R303, R305, R306, R308,
R309, R311, R412) -/
def Obligations.MatrixEvents : Prop :=
  ∀ (s : State),
    let c := s.cur.cluster
    let m := s.cur.id
    (∀ run, (s.mo c m).run = some run → run.opId = s.cur.index → isMmap run.token.word = false →
      run.shadow.bytes.wf = true →
      let f := ctlFields run.token.word
      let a := s.operandA c f
      let b := s.operandB c f run
      let w := run.shadow.ctrl
      ∃ (t : State) (z : Acc), t = s.emitTo c (0x12C0 + m) (s.recAt c (0x12C0 + m)).t0 (.narrow run.token.word) run.token.tag ∧
        exec .mmaComplete s = .next (t.endMma c m run z) ∧ ((t.endMma c m run z).mo c m).run = none ∧
        ((t.endMma c m run z).accum c (0x40 ||| f.zidx.zeroExtend 7)).bytes = z.bytes ∧ z.ctrl = w ∧
        ∀ i j, i < ctrlRows w → j < ctrlCols w → accRaw z i j =
          chunkedSum (if ctrlF64 w then 3 else 0) (chunkLength (ctrlFmt a.ctrl)) f.sat (productsOf f a b i j).length
            (productsOf f a b i j) (if f.acc then accRaw run.shadow i j else 0) % 2 ^ (8 * accBytes w)) ∧
    (∀ st d run n other, s.cur.pair = some (st, d) → (s.mo s.cur.index m).run = some run →
      s.partnerMo c st s.cur.tag d = some (n, other) → run.partner = true → other.partner = true →
      run.token.tag = s.cur.tag → run.token.pair = some (st, d) → s.cur.index ≠ c →
      let e := s.cur.index
      let x := s.exportDown e s.cur.tag
      let f := ctlFields run.token.word
      let h := ctlFields other.token.word
      let mine := (s.operandA e f, s.operandB e f run)
      let theirs := (s.operandA c h, s.operandB c h other)
      let both := if e < c then [(f, mine), (h, theirs)] else [(h, theirs), (f, mine)]
      (halvesAgree f h mine.1 mine.2 theirs.1 theirs.2 run.shadow other.shadow = true →
        ∃ t, exec .mmapPartnerArrival s = .next t ∧ (t.mo e m).run = none ∧ (t.mo c n).run = none ∧
          (t.accum e (0x40 ||| f.zidx.zeroExtend 7)).bytes = mmaResult f both run.shadow ∧
          (t.accum c (0x40 ||| h.zidx.zeroExtend 7)).bytes = mmaResult h both other.shadow) ∧
      (halvesAgree f h mine.1 mine.2 theirs.1 theirs.2 run.shadow other.shadow = false →
        exec .mmapPartnerArrival s = .next ((((x.endMma e m run run.shadow).endMma c n other other.shadow).takeTrap .illegal e
          (0x12C0 + m) run.token.tag run.token.word 0).takeTrap .illegal c (0x12C0 + n) other.token.tag
          other.token.word 0))) ∧
    (∀ q run tr k, s.req? m = some q → (s.mo c s.cur.index).run = some run → q.stage = .held tr →
      s.ctxAt q.cluster (tagCtx q.tag) = some k → k.spec = false → run.token.pair = none → ∃ x : State,
      (x.mo c s.cur.index).run = some { run with restored := true, faulted := some tr, stream := [], partner := false } ∧
      (run.restored = false → x.accum c run.z = run.shadow) ∧ x.mem = s.mem ∧ x.contexts = s.contexts ∧
      (x.region c).tiles = (s.region c).tiles ∧ (x.region c).slots = (s.region c).slots ∧
      exec .moStreamFault s = .next (x.trapEvent k tr c (0x12C0 + s.cur.index) q.tag run.token.word 0
        (s.cur.amount.getD 0) q.agen (q.kindCode s.cur.go) [])) ∧
    (∀ e, (s.region c).expansions.find? (fun e => e.id == m) = some e → s.runs c e.tag = true →
      (∀ b ∈ (s.region c).blocked, b.1 ≠ e.station) →
      let r := s.recAt c e.station
      ∃ w : Word, StepToken e.template e.step e.next w ∧
        let x := s.emitTo c e.station r.t0 (.narrow w) e.tag
        exec .mseqStep s = .next (
          if e.next + 1 < e.step.toNat % 256 then
            (x.updRegion c (fun k => { k with expansions := k.expansions.map (fun (y : Expansion) =>
              if y.id = m then { y with next := y.next + 1 } else y) })).dueEvent .mseqStep { cluster := c, id := m }
          else ((x.updRegion c (fun k => { k with expansions := k.expansions.filter (fun y => y.id != m) })).emitTo c
            e.station r.t1 (.narrow (BitVec.ofNat 32 (e.step.toNat % 256))) e.tag).flightDown c e.tag))

/-- A command for a region without a stream is discarded. BEGIN with a tag at the start, PATBEGIN, END and CONFIG_WRITE
in the body, RECTA, RECTB and CONFIG_WRITE in a pattern, PATEND after its body and CHKLO after END go on: the stream
takes the tag, the field of the record, the corner, the rectangle, the body write or the phase, and counts its command
under the checksum. PATEND applies its body to every PE of its list. Any command out of its place ends the stream with
ORDER, a vacant address or field with ADDRESS, a value that a command may not carry with FIELD, a checksum that differs
with CHECKSUM. CHKHI with the right checksum and a configuration without fault makes it resident under its tag and
starts the sweep. The model's choices: the FLD of a command out of place and that of a stream that is cut short (log
19), ADDRESS for a field that an address does not have (log 20), and ORDER for a BEGIN with tag 0 in mid-stream (log
128). (R64, R65, R68, R69, R70, R71, R72, R73, R74, R75, R96, R97) -/
def Obligations.StreamCommands : Prop :=
  ∀ (s : State) (addr : BitVec 13) (fld : BitVec 3) (val : Half),
    let c := s.cur.cluster
    let write : Instr := .configWrite addr fld val
    ((s.region c).delivery = none →
      ∀ i ∈ [write, .beginStream val, .patbegin val, .recta val, .rectb val, .patend val, .endStream val, .chklo val, .chkhi val,
        .streamCutShort], exec i s = .next s) ∧
    ∀ d, (s.region c).delivery = some d →
      let count := fun (k : Nat) => d.summed ++ bytesOfNat 4 (0xFFF8 * 2 ^ 16 + k * 2 ^ 16 + val.toNat)
      let word := addr.toNat * 2 ^ 19 + fld.toNat * 2 ^ 16 + val.toNat
      let takes := populated addr.toNat fld.toNat || (val == 0 && populated addr.toNat 0)
      (d.phase = .start →
        (val ≠ 0 → Streams (.beginStream val) s { d with
          tag := val, amend := (s.region c).residents.any (fun e => e.tag == val), phase := .body, summed := count 0 }) ∧
        (val = 0 → Refused (.beginStream val) s d 0x1FFF 0 4) ∧
        Refused .streamCutShort s d 0x1FFF 0 2) ∧
      (d.phase ≠ .start → Refused (.beginStream val) s d 0x1FFF 0 2) ∧
      (d.phase = .body →
        (takes = false → Refused write s d addr.toNat fld.toNat 3) ∧
        (takes = true → ∃ e : Delivery, Streams write s e ∧ e.phase = .body ∧ e.tag = d.tag ∧
          e.summed = d.summed ++ bytesOfNat 4 word ∧ addr.toNat ∈ e.written ∧
          e.records.get? addr.toNat = some ((d.records.getD addr.toNat {}).withField fld.toNat val) ∧
          ∀ a, a ≠ addr.toNat → e.records.get? a = d.records.get? a ∧ (a ∈ e.written ↔ a ∈ d.written)) ∧
        Streams (.patbegin val) s { d with phase := .pattern [] none [], summed := count 1 } ∧
        Streams (.endStream val) s { d with phase := .ended, summed := count 5 } ∧
        Refused .streamCutShort s d 0x1FFF 5 2) ∧
      (d.phase ≠ .body → Refused (.patbegin val) s d 0x1FFF 1 2 ∧ Refused (.endStream val) s d 0x1FFF 5 2) ∧
      (∀ rects, d.phase = .pattern rects none [] →
        (16 ≤ rects.length → Refused (.recta val) s d 0x1FFF 2 2) ∧
        (rects.length < 16 → val.toNat < 1024 → Streams (.recta val) s { d with
          phase := .pattern rects (some (BitVec.ofNat 10 val.toNat)) [], summed := count 2 }) ∧
        (rects.length < 16 → 1024 ≤ val.toNat → Refused (.recta val) s d 0x1FFF 2 4)) ∧
      ((∀ rects, d.phase ≠ .pattern rects none []) → Refused (.recta val) s d 0x1FFF 2 2) ∧
      ((∀ rects a, d.phase ≠ .pattern rects (some a) []) → Refused (.rectb val) s d 0x1FFF 3 2) ∧
      ((∀ rects w ws, d.phase ≠ .pattern rects none (w :: ws)) → Refused (.patend val) s d 0x1FFF 4 2) ∧
      (d.phase ≠ .body → (∀ rects ws, d.phase ≠ .pattern rects none ws) → Refused write s d 0x1FFF fld.toNat 2) ∧
      (∀ rects a, d.phase = .pattern rects (some a) [] →
        let fits := val.toNat < 1024 ∧ a.toNat / 32 ≤ val.toNat / 32 ∧ a.toNat % 32 ≤ val.toNat % 32
        (fits → Streams (.rectb val) s { d with
          phase := .pattern (rects ++ [(a, BitVec.ofNat 10 val.toNat)]) none [], summed := count 3 }) ∧
        (¬ fits → Refused (.rectb val) s d 0x1FFF 3 4)) ∧
      (∀ rects ws, d.phase = .pattern rects none ws →
        (rects ≠ [] → ws.length < 32 → addr.toNat ≤ 3 → Streams write s { d with
          phase := .pattern rects none (ws ++ [BitVec.ofNat 32 word]), summed := d.summed ++ bytesOfNat 4 word }) ∧
        (rects ≠ [] → ws.length < 32 → 3 < addr.toNat → Refused write s d addr.toNat fld.toNat 3) ∧
        (rects = [] ∨ 32 ≤ ws.length → Refused write s d 0x1FFF fld.toNat 2)) ∧
      (∀ rects ws, d.phase = .pattern rects none ws → ws ≠ [] →
        (∃ e : Delivery, Streams (.patend val) s e ∧ e.phase = .body ∧ e.summed = count 4 ∧
          ∀ p slot, p < 1024 → slot < 4 →
            let mine := ws.filter (fun (w : Word) => w.toNat / 2 ^ 19 % 4 == slot)
            (p ∉ pesOf rects ∨ mine = [] → e.records.get? (4 * p + slot) = d.records.get? (4 * p + slot)) ∧
            (p ∈ pesOf rects → mine ≠ [] → e.records.get? (4 * p + slot) = some (mine.foldl (fun (k : RawRecord) (w : Word) =>
              k.withField (w.toNat / 2 ^ 16 % 8) (bodyValue p (w.toNat / 2 ^ 16 % 8) (w.extractLsb' 0 16)).1)
              (d.records.getD (4 * p + slot) {})))) ) ∧
      (d.phase = .ended → Streams (.chklo val) s { d with phase := .checked val }) ∧
      (d.phase ≠ .ended → Refused (.chklo val) s d 0x1FFF 6 2) ∧
      (∀ lo, d.phase = .checked lo →
        (val ++ lo ≠ crc32 d.summed → Refused (.chkhi val) s d 0x1FFF 7 1) ∧
        (val ++ lo = crc32 d.summed →
          let w := configStatus (s.streamConfig c d) d.outside d.written (s.heldByOthers c d)
          (w ≠ 0 → Refused (.chkhi val) s d (w.toNat / 2 ^ 19) (w.toNat / 2 ^ 16 % 8) (w.toNat % 2 ^ 16)) ∧
          (w = 0 → ∃ x : State,
          exec (.chkhi val) s = .next (x.endDelivery c d.job 0) ∧ Within c { s with nextId := s.nextId + 1 } x ∧
          (x.region c).delivery = none ∧
          (Table.wf d.records = true → Table.wf (s.region c).records = true → ∀ a, (x.region c).records.get? a =
            if a ∈ d.written then (d.records.get? a).filter (fun w => !((classOf? a).isSome && w.f0 == 0))
            else (s.region c).records.get? a) ∧ (x.region c).swept = false ∧
          (x.region c).sweep = 0 ∧ .event .configSweep { cluster := c } ∈ x.agenda ∧
          (∃ e ∈ (x.region c).residents, e.tag = d.tag ∧ ∀ a ∈ d.written, a ∈ e.addrs) ∧
          ∀ e, e.tag ≠ d.tag → (e ∈ (x.region c).residents ↔ e ∈ (s.region c).residents)))) ∧
      ((∀ lo, d.phase ≠ .checked lo) → Refused (.chkhi val) s d 0x1FFF 7 2)

/-- TOKEN_ARRIVAL drops a discarded context's token, sends a token on from a stub once it holds a credit of the other
queue, and places a token in the store of its element with a credit freed; a control token joins the queue of its MO, an
exported one leaves for the mesh. OVERFLOW_SLOT_FREED ends the stalls of a region. CREDIT_RETURN frees one entry of its
queue and lets a result that waits for it leave. ARBITER_WEIGHT_UPDATE gives each station of a region one more than a
sixteenth of the tokens that entered its queues, at most 15. A probe is sent after 65,536 cycles, passed on by a waiting
station above its origin, and raises DEADLOCK at its origin. An export crosses to the cluster its offsets name once it
holds a credit of the queue there, or takes BAD_TARGET, or is discarded where its target is not valid, and is counted
there and acknowledged. A wave of a block without exits closes once nothing of it is left, and the record of a closed,
finished wave goes. The model's choices: a probe that is back at its origin raises DEADLOCK in the context of its edge,
and where that context waits there no more it ends, as it does after 4,096 hops (log 25); an export names a home
address, which resolves to the current one (log 24); what a discarded context has on its way is dropped and counted down
(log 85); which of several waiting senders goes first (log 119). (R36, R37, R39, R40, R50, R55, R59, R60, R61, R62,
R223, R419) -/
def Obligations.FabricEvents : Prop :=
  ∀ (s : State),
    let x := s.cur
    let c := x.cluster
    let t := x.token
    let alive := fun (d : Nat) (g : Word) => ∃ k, s.ctxAt d (tagCtx g) = some k ∧ k.killed = false
    (¬ alive c t.tag → exec .tokenArrival s = .next ((s.spend c t.tag t.reply).freeCredit c x.index t.tag)) ∧
    (alive c t.tag → ∀ n, (s.region c).stubs.get? t.station = some n →
      let k := s.queueKey c n t.port
      let on : Activity := .event .tokenArrival { cluster := c, token := { t with station := n }, index := k }
      (k = x.index → exec .tokenArrival s = .next (s.due on)) ∧
      (k ≠ x.index → s.hasCredit c k = true → ∃ u : State, exec .tokenArrival s = .next u ∧ Within c s u ∧ on ∈ u.agenda ∧
        (u.region c).inUse.getD k 0 = (s.region c).inUse.getD k 0 + 1 ∧
        .event .creditReturn { cluster := c, index := x.index, tag := t.tag } ∈ u.agenda) ∧
      (k ≠ x.index → s.hasCredit c k = false →
        exec .tokenArrival s = .next (s.dueEvent .tokenArrival { cluster := c, token := t, index := x.index }))) ∧
    (alive c t.tag → (s.region c).stubs.get? t.station = none →
      (∀ cls, placeOf t.station = .station cls → t.kind = .data → s.actionAt c t.station t.port ≠ .sticky →
        elementOf t.station ∉ (s.region c).stalled → bringsWave (s.opAt c t.station) (s.recAt c t.station) = false →
        (∀ e ∈ (s.region c).store, e.spilled = false ∧ e.left = none) →
        ((s.region c).store.filter (fun e => elementOf e.station == elementOf t.station)).length < storeSize (elementOf t.station) →
        ∃ u : State, Within c s u ∧ (u.region c).store = (s.region c).store ++
            [{ station := t.station, port := t.port, request := false, value := t.value, tag := t.tag, sticky := false,
               spilled := false, reply := t.reply, came := s.cycle }] ∧
          (u.counts c (tagCtx t.tag)).credits = (s.counts c (tagCtx t.tag)).credits + 1 ∧
          (u.counts c (tagCtx t.tag)).flight = (s.counts c (tagCtx t.tag)).flight ∧
          .event .creditReturn { cluster := c, index := x.index, tag := t.tag } ∈ u.agenda ∧
          exec .tokenArrival s = .next ((u.askPulls c t.station (s.opAt c t.station) (s.recAt c t.station) t.tag).offer c
            t.station (s.opAt c t.station) (s.recAt c t.station) t.tag)) ∧
      (placeOf t.station = .moControl → t.kind = .data → ∃ u : State, exec .tokenArrival s = .next u ∧ Within c s u ∧
        (u.mo c (t.station - 0x12C0)).queue = (s.mo c (t.station - 0x12C0)).queue ++
          [{ word := t.value.word, tag := t.tag, pair := none, reply := t.reply }] ∧ .control c (t.station - 0x12C0) ∈ u.agenda) ∧
      (placeOf t.station = .exportPort → ∃ u : State, exec .tokenArrival s = .next u ∧ Within c s u ∧
        (u.counts c (tagCtx t.tag)).exports = (s.counts c (tagCtx t.tag)).exports + 1 ∧
        (u.counts c (tagCtx t.tag)).flight = (s.counts c (tagCtx t.tag)).flight - 1 ∧
        .event .exportSend { cluster := c, station := t.station, token := { t with reply := none } } ∈ u.agenda)) ∧
    (∃ u : State, exec .overflowSlotFreed s = .next u ∧ Within c s u ∧
      u.region c = { s.region c with stalled := [] }) ∧
    (∃ u : State, Within c s u ∧ (u.region c).inUse.getD x.index 0 = (s.region c).inUse.getD x.index 0 - 1 ∧
      (u.counts c (tagCtx x.tag)).credits = (s.counts c (tagCtx x.tag)).credits - 1 ∧
      (u.region c).blocked = (s.region c).blocked ∧
      let first := fun (d : Nat) => (u.region d).blocked.find? (fun b => b.2.cluster == c && u.wantedKey b.1 b.2 == x.index)
      ((∀ d, first d = none) → exec .creditReturn s = .next u) ∧
      ((∃ d, first d ≠ none) → ∃ d b, first d = some b ∧ (d ≠ c → first c = none) ∧
        exec .creditReturn s = .next (((u.updRegion d (fun k => { k with blocked := k.blocked.erase b })).launchFrom d b.1 b.2).endWait
          d b.1))) ∧
    ((s.region c).arbSince + 256 ≤ s.cycle → ∃ u : State, exec .arbiterWeightUpdate s = .next u ∧ Within c s u ∧
      ∀ n, (u.region c).arb.get? n = ((s.region c).arb.get? n).map (fun (e : Arb) =>
        { e with weight := 1 + min 14 (e.entered / 16), entered := 0 })) ∧
    (let edges := s.waitEdges c x.station
     let mine := edges.filter (fun e => s.probes c e.2)
     let since : Nat := (s.region c).waits.getD x.station s.cycle
     let p := x.probe
     let u := s.flightDown c x.tag
     let new : Probe := { cluster := c, origin := x.station, list := [x.station], hops := 1 }
     let on : Probe := { p with hops := p.hops + 1, list := if p.list.length < 16 then p.list ++ [x.station] else p.list }
     (s.isWaiting c x.station = true → since + 65536 ≤ s.cycle → mine ≠ [] → ∃ (w : State), ∃ e ∈ mine,
        exec .deadlockProbeSend s = .next w ∧ Within c s w ∧ (w.region c).waits.get? x.station = some s.cycle ∧
        .event .deadlockProbeArrival { cluster := c, station := e.1, tag := e.2, probe := new } ∈ w.agenda) ∧
     (edges = [] ∨ ¬ alive c x.tag → exec .deadlockProbeArrival s = .next u) ∧
     (p.origin = x.station → (∃ e ∈ edges, tagCtx e.2 = tagCtx x.tag) → alive c x.tag →
        exec .deadlockProbeArrival s = .next (u.raiseDeadlock c x.station x.tag p.list)) ∧
     (p.origin = x.station → (∀ e ∈ edges, tagCtx e.2 ≠ tagCtx x.tag) → exec .deadlockProbeArrival s = .next u) ∧
     (p.origin ≠ x.station → x.station < p.origin ∨ 4096 ≤ p.hops → exec .deadlockProbeArrival s = .next u) ∧
     (edges ≠ [] → alive c x.tag → p.origin < x.station → p.hops < 4096 → ∃ e ∈ edges,
        exec .deadlockProbeArrival s = .next ((u.flightUp c x.tag).dueEvent .deadlockProbeArrival
          { cluster := c, station := e.1, tag := x.tag, probe := on }))) ∧
    (∀ k, s.ctxAt c (tagCtx t.tag) = some k → k.killed = false →
      let w := s.raw c x.station
      let dx := w.offsets.1.toInt
      let dy := w.offsets.2.toInt
      let there := fun (d : Nat) => { t with
        cluster := d, station := (Target.ofHalf w.f1).addr.toNat, port := (Target.ofHalf w.f1).port, kind := .data }
      let arriving := fun (d st : Nat) => let y := there d; { y with station := st }
      let lies := fun (d : Nat) => (d % 8 : Nat) = (c % 8 : Nat) + dx ∧ (d / 8 : Nat) = (c / 8 : Nat) + dy ∧
        k.rect.contains d = true
      (∀ d, d < 64 → lies d → (Target.ofHalf w.f1).valid = false → exec .exportSend s = .next (s.exportDown c t.tag)) ∧
      (∀ d, d < 64 → lies d → (Target.ofHalf w.f1).valid = true →
        let st := s.resolve d (there d).station
        let key := s.queueKey d st (there d).port
        (s.hasCredit d key = true → ∃ u : State, exec .exportSend s = .next u ∧ Within d s u ∧
          (u.region d).inUse.getD key 0 = (s.region d).inUse.getD key 0 + 1 ∧
          .event .exportArrival { cluster := d, station := x.station, index := c, id := key, token := arriving d st } ∈ u.agenda) ∧
        (s.hasCredit d key = false → exec .exportSend s = .next (s.updRegion c (fun k =>
          { k with blocked := k.blocked ++ [(x.station, there d)] })))) ∧
      ((∀ d, d < 64 → ¬ lies d) → exec .exportSend s
        = .next ((s.exportDown c t.tag).takeTrap .badTarget c x.station t.tag t.value.word 0)) ∧
      ∃ u : State, Within c s u ∧ (u.counts c (tagCtx t.tag)).flight = (s.counts c (tagCtx t.tag)).flight + 1 ∧
        exec .exportArrival s = .next ((u.dueEvent .tokenArrival { cluster := c, token := t, index := x.id }).dueEvent .exportAck
          { cluster := x.index, tag := t.tag })) ∧
    (¬ alive c t.tag → exec .exportArrival s
      = .next ((s.freeCredit c x.id t.tag).dueEvent .exportAck { cluster := x.index, tag := t.tag })) ∧
    (x.id = 0 → exec .exportAck s = .next (s.exportDown c x.tag)) ∧
    (∀ e, x.id ≠ 0 → s.spanOut.find? (fun e => e.id == x.id) = some e → alive e.cluster e.tag →
      let u := { s with spanOut := s.spanOut.filter (fun o => o.id != x.id) }
      let r := s.recAt e.cluster e.station
      exec .exportAck s = .next (((u.emitTo e.cluster e.station r.t0 (.narrow 0) e.tag).emitTo e.cluster e.station r.t1
        (.narrow 0) e.tag).exportDown e.cluster e.tag)) ∧
    (∀ w, s.wave? c x.index x.tag = some w → w.drained = false → (s.region c).halted = false →
      s.blockBusy c x.index x.tag = false →
      (w.isOpen = true → (∀ b, s.block? c x.index = some b → b.exits = 0) → ∃ (u : State) (w' : Wave),
        exec .waveCloseQuiescence s = .next u ∧ u.wave? c x.index x.tag = some w' ∧ w'.isOpen = false ∧
        w'.finished = true) ∧
      (w.isOpen = false → w.finished = true → ∃ u : State, exec .waveCloseQuiescence s = .next u ∧ Within c s u ∧
        u.wave? c x.index x.tag = none))

/-- CONFIG_SWEEP advances the sweep of a region step by step from 0 to 63 and ends it. SEED_INJECTION injects the
argument words at the enabled seed ports of the configuration in every cluster of the rectangle once all have swept,
starts the count of the watchdog and has the context watched. CONTEXT_COMPLETE frees a context whose four counts are
zero, with its registers, and its launch completes with OK where no step follows; a discarded context is freed and its
launch settled. MIGRATION_SELECT of a period of 4,096 cycles moves nothing where no station qualifies, and otherwise
moves the instruction of the qualifying station whose queues held the most, the lowest address on a tie, to the free
station within reach whose element fired least, leaving a stub. STUB_RELEASE removes a stub that no token on its way
names and from whose element no entry is still to come. The model's choices: a period is at least 4,096 cycles and ends
at the next MIGRATION_SELECT, only an instruction with a live context moves, and PERF 2 counts the move then (log 23).
(R51, R53, R55, R61, R63, R119, R210, R409, R410, R417, R419) -/
def Obligations.ContextEvents : Prop :=
  ∀ (s : State),
    let x := s.cur
    let c := x.cluster
    ((s.region c).swept = false → (s.region c).sweep < 63 → ∃ t : State, exec .configSweep s = .next t ∧ Within c s t ∧
      t.region c = { s.region c with sweep := (s.region c).sweep + 1 } ∧ .event .configSweep { cluster := c } ∈ t.agenda) ∧
    ((s.region c).swept = false → 63 ≤ (s.region c).sweep → ∃ t : State, exec .configSweep s = .next t ∧ Within c s t ∧
      (t.region c).swept = true ∧ .event .migrationSelect { cluster := c } ∈ t.agenda) ∧
    (∀ k l, s.contexts.find? (fun k => k.id == x.id) = some k → s.launchOf k = some l → k.killed = false → k.seeded = false →
      k.saved = false → s.jobs.any (fun j => j.launch == some l.id) = false →
      (∀ d ∈ k.rect.clusters, (s.region d).swept = true ∧ (s.region d).halted = false ∧ (s.region d).draining = false) →
      ∃ t : State, exec .seedInjection s = .next t ∧
        (∀ k' ∈ t.contexts, k'.id = k.id → k'.seeded = true) ∧ .event .contextComplete { id := k.id } ∈ t.agenda ∧
        (l.wdog ≠ 0 → .event .watchdog { id := k.id } ∈ t.agenda) ∧
        (∀ l' ∈ t.launches, l'.id = l.id → l'.start = s.refCount ∧ l'.counted = 0 ∧ l'.barked = false) ∧
        ∃ u, u = k.rect.clusters.foldl (fun s d => s.seedCluster k l.args d) s ∧ t.regions = u.regions) ∧
    (∀ k args d n, (List.range 16).filter (fun m => (((s.region d).residents.find? (fun e => e.tag == k.cfg)).map
          (fun e => e.addrs.contains (0x1900 + m))).getD false && (s.raw d (0x1900 + m)).enabled) = [n] →
      let w := s.raw d (0x1900 + n)
      let v : Value := .narrow (args.getD n 0)
      let g : Word := BitVec.ofNat 32 (k.ctx.toNat * 2 ^ 24)
      ∃ u : State, Within d s u ∧ s.seedCluster k args d = (u.emitTo d (0x1900 + n) (Target.ofHalf w.f1) v g).emitTo d
        (0x1900 + n) (Target.ofHalf w.f2) v g) ∧
    (∀ k, s.contexts.find? (fun k => k.id == x.id) = some k → s.countsZero k = true → s.heldInRing k = false →
      (let t := s.endContext k
       (∀ k' ∈ t.contexts, k'.id ≠ k.id) ∧ ∀ d ∈ k.rect.clusters, t.counts d k.ctx = {} ∧
         (t.region d).exitv.get? k.ctx.toNat = none ∧ (∀ p ∈ (t.region d).pins, p.ctx ≠ k.ctx) ∧
         ∀ n, n / 256 = k.ctx.toNat → (t.region d).bases.get? n = none) ∧
      (k.killed = true → exec .contextComplete s = .next ((s.endContext k).settleLaunch k.launch)) ∧
      (∀ l, k.killed = false → k.saved = false → k.seeded = true → k.trapped = false → k.spec = false →
        (∀ d ∈ k.rect.clusters, (s.region d).halted = false) → s.launchOf k = some l →
        (∀ o, s.object? l.object = some o → o.seq = []) →
        exec .contextComplete s = .next ((s.endContext k).completeLaunch l .ok { evtype := 2 }))) ∧
    (let p := s.cycle - (s.region c).movedAt
     let fired := fun (n : Nat) => (s.region c).fired.getD (elementOf n) 0
     let held := fun (n : Nat) => (((s.queuesOf c n).map (fun k => (s.region c).occupied.getD k 0)).sum, (s.queuesOf c n).length)
     let full := fun (n : Nat) => n ∈ s.movable c ∧ 0 < (held n).2 ∧ 6 * p * (held n).2 ≤ (held n).1 ∧ 7 * p ≤ 8 * fired n
     let free := fun (a b : Nat) => b < 0x1100 ∧ b ≠ a ∧ (s.region c).canMove a b = true
     let next := { s.region c with movedAt := s.cycle, occupied := [], fired := [] }
     (p < 4096 → ∃ t : State, exec .migrationSelect s = .next t ∧ t.regions = s.regions ∧ t.mem = s.mem) ∧
     (4096 ≤ p → s.mayMigrate c = false ∨ (∀ a, ¬ full a) → ∃ t : State, exec .migrationSelect s = .next t ∧
        Within c s t ∧ t.region c = next) ∧
     (4096 ≤ p → s.mayMigrate c = true → (∃ a, full a) → (∀ a, full a → ∃ b, free a b) →
        Table.wf (s.region c).records = true → ∃ (t : State) (a b : Nat), exec .migrationSelect s = .next t ∧
        full a ∧ (∀ n, full n → (held n).1 * (held a).2 ≤ (held a).1 * (held n).2 ∧
          ((held n).1 * (held a).2 = (held a).1 * (held n).2 → a ≤ n)) ∧
        free a b ∧ (∀ n, free a n → fired b ≤ fired n ∧ (fired b = fired n → b ≤ n)) ∧
        (t.region c).records.get? b = some (retargetAt a b b (s.raw c a)) ∧ (t.region c).records.get? a = none ∧
        (t.region c).stubs.get? a = some b ∧ (∀ e ∈ (t.region c).store, e.station ≠ a) ∧
        (t.region c).perf.getD 2 0 = (s.region c).perf.getD 2 0 + 1 ∧ t.mem = s.mem ∧
        ∀ d, d ≠ c → t.region d = { s.region d with blocked := (t.region d).blocked, waits := (t.region d).waits })) ∧
    ((∀ y, .event .tokenArrival y ∈ s.agenda ∨ .event .exportArrival y ∈ s.agenda → y.cluster = c → y.token.station ≠ x.station) →
      (∀ e ∈ (s.region c).store, (s.region c).stubs.get? x.station = some e.station → e.left ≠ some (elementOf x.station)) →
      ∃ t : State, exec .stubRelease s = .next t ∧ Within c s t ∧ t.agenda = s.agenda ∧
      t.region c = { s.region c with stubs := (s.region c).stubs.erase x.station })

/-- An operation that reaches the wave store buffer issues at once where its place in the chain has come, and otherwise
waits there, refused while 256 entries are taken; one of a wave that DRAIN closed is over. A load or store whose turn
has come, in one line, is performed where its leaf is uncached, a vault slot holds its page or the L1 holds the line:
the load with the bytes at its physical address after A is set, the store with its bytes written; where its translation
fails it is held at its port with the trap. One that crosses a line is held with the fault of its second half, or with
ALIGN where the pages differ in MT, W or SHR, before any byte moves; otherwise its first half goes first and the
translation of the second is kept for the second, which completes it. An atomic or phaser operation goes on to its home,
or is held with ALIGN; a quarry operation acts where it is translated to, a take or a give of the slab that its cluster
holds there at once. A row of TLD comes into the register, a row of TST goes to memory, and the next row or the end of
the operation follows. A load at the vault port reads the slot of its page. A demand entry is serviced with the next
free page, zeroed, and a leaf with V, leaf, W and A set. The reply of a performed request sends its values, and counts
as outstanding until the last of its tokens is consumed, or no more where no target is valid. Which table entries a
translation reads is by the model: those of the walk, or none where a cached leaf serves, which R319 leaves open. (R212,
R217, R221, R224, R237, R295, R317, R318, R326, R336, R365, R415) -/
def Obligations.MemoryEvents : Prop :=
  ∀ (s : State) (q : MemReq), s.req? s.cur.id = some q →
    let c := q.cluster
    let g := q.tag
    let waits := ∃ t : State, exec .wsbArrival s = .next t ∧ Within c s t ∧ t.agenda = s.agenda ∧
      (t.region c).buffer = (s.region c).buffer ++ [{ id := q.id, refused := decide (256 ≤ (s.region c).entries) }]
    let va := q.va.toNat
    let n := 128 - va % 128
    let isLoad := q.kind = .load
    let isStore := q.kind = .store
    let turn := Walking s q ∧ s.mayPerform q = true
    (∀ w, s.wave? c q.block g = some w → w.drained = true → exec .wsbArrival s = .next (s.endReq q)) ∧
    ((∀ w, s.wave? c q.block g = some w → w.drained = false) →
      (s.canIssue q = false ∨ (s.region c).halted = true → waits) ∧
      (s.canIssue q = true → (s.region c).halted = false → exec .wsbArrival s = .next ((s.issue q).pumpBuffer c) ∧
        (∀ w, s.wave? c q.block g = some w → q.kind = .load → ∃ w', (s.issue q).wave? c q.block g = some w' ∧
          w'.last = some (q.own, q.succ) ∧ w'.finished = (w.finished || q.succ == 0)) ∧
        (q.kind = .load → .event .pageWalk { id := q.id } ∈ (s.issue q).agenda))) ∧
    (∀ t, turn → q.agen = 0 → q.got = [] →
      (isLoad → Translates s q va q.size false t → Served s q va false t →
        let v := servedAt s q va false t
        exec .pageWalk s = .next (v.performed q [loadValue q (v.readPhysBytes t.pa q.size)])) ∧
      (isStore → Translates s q va q.size true t → Served s q va true t →
        exec .pageWalk s
          = .next (((servedAt s q va true t).writePhys t.pa ((storeBytes q).take q.size)).performed q [.narrow 0]))) ∧
    (∀ tr bad, turn → (isLoad ∨ isStore) → q.agen = 0 → va % 128 + q.size ≤ 128 → TablesRead s q va →
      s.translate c g (s.rootOf c g) va (q.kind == .store) = .error (none, tr, bad) →
      exec .pageWalk s = .next (s.holdReq q tr va bad)) ∧
    (∀ t, turn → (isLoad ∨ isStore) → q.agen = 0 → q.got = [] → 128 < va % 128 + q.size → q.size ≤ 128 →
      Translates s q va n (q.kind == .store) t → TablesRead s q (va + n) →
      (∀ tr bad, s.translateTo q (va + n) (q.kind == .store) = .error (none, tr, bad) →
        exec .pageWalk s = .next (s.holdReq q tr (va + n) bad)) ∧
      ∀ e, s.translateTo q (va + n) (q.kind == .store) = .ok e →
        (leafMt e.leaf ≠ leafMt t.leaf ∨ leafW e.leaf ≠ leafW t.leaf ∨ leafShr e.leaf ≠ leafShr t.leaf →
          exec .pageWalk s = .next (s.holdReq q .align va false)) ∧
        (leafMt e.leaf = leafMt t.leaf → leafW e.leaf = leafW t.leaf → leafShr e.leaf = leafShr t.leaf →
          let s1 := s.updReq q.id (fun p => { p with second := some e })
          let goesOn := fun (x : State) (got : List Byte) =>
            (x.updReq q.id (fun p => { p with agen := n, got := got })).retryReq q.id
          (isLoad → Served s1 q va false t →
            let v := servedAt s1 q va false t
            exec .pageWalk s = .next (goesOn v (v.readPhysBytes t.pa n))) ∧
          (isStore → Served s1 q va true t →
            exec .pageWalk s = .next (goesOn ((servedAt s1 q va true t).writePhys t.pa ((storeBytes q).take n)) [])))) ∧
    (∀ t, turn → q.agen = n → n < q.size → q.size ≤ 128 → q.second = some t →
      (∀ a ∈ t.walked, s.poisoned.contains (a / 128) = false) → (s.physPlace t.pa = .hbm ∨ s.physPlace t.pa = .host) →
      s.inLentPage t.pa = false → s.poisoned.contains (t.pa / 128) = false →
      (isLoad → Served s q (va + n) false t →
        let v := servedAt s q (va + n) false t
        exec .pageWalk s = .next (v.performed q [loadValue q (q.got ++ v.readPhysBytes t.pa (q.size - n))])) ∧
      (isStore → Served s q (va + n) true t →
        exec .pageWalk s = .next (((servedAt s q (va + n) true t).writePhys t.pa
          (((storeBytes q).drop n).take (q.size - n))).performed q [.narrow 0]))) ∧
    (let isAtomic := ∃ op, q.kind = .atomic op
     let size := match q.kind with
       | .phaser _ => 128
       | _ => if q.kind = .atomic .fadd ∧ q.fmt ≠ 0 ∧ q.flags.getLsbD 1 = false then 2 else 4
     let write := decide (q.kind ≠ .phaser .wait) && decide (q.kind ≠ .phaser .stat)
     turn → q.agen = 0 → va < 2 ^ 52 → (isAtomic ∨ ∃ op, q.kind = .phaser op) →
      (va % size ≠ 0 → q.kind ≠ .phaser .reg → exec .pageWalk s = .next (s.holdReq q .align va false)) ∧
      (∀ t, va % size = 0 → inAperture va = false → Translates s q va size write t →
        (write = true → (marked s q va write t).slabsOut (t.pa / 128) = false) →
        exec .pageWalk s = .next ((((marked s q va write t).forget q).updReq q.id
          (fun p => { p with stage := .away })).dueEvent .atomicAtHome { id := q.id, index := t.pa }))) ∧
    (∀ op t, turn → q.agen = 0 → va < 2 ^ 52 → va % 128 = 0 → q.kind = .quarry op → inAperture va = false →
      Translates s q va 128 true t → (marked s q va true t).slabStruck c (t.pa / 128) = false →
      let u := marked s q va true t
      let line := t.pa / 128
      let k := u.counter line
      exec .pageWalk s = .next (u.actOnLine q op line) ∧
      (k.init = true → k.lost = false → u.sharedPage q = false → 1 ≤ q.b.toNat → q.b.toNat ≤ 2147483647 →
        ∀ b, u.slab? c line = some b →
        ((op = .take ∨ op = .takew) → q.b.toNat ≤ b.amount → u.mixed line = false →
          u.actOnLine q op line = (u.setSlab c line (b.amount - q.b.toNat)).performed q [.narrow q.b]) ∧
        (op = .give → b.amount + q.b.toNat ≤ b.ceil →
          u.actOnLine q op line = (u.setSlab c line (b.amount + q.b.toNat)).performed q [.narrow 0])) ∧
      (op = .init → q.b.toNat ≤ 2147483647 → u.actOnLine q op line = u.toHome q line (u.sharedPage q)) ∧
      (op ≠ .init → k.init = false ∨ k.lost = true → u.actOnLine q op line = u.quarryTrap q)) ∧
    (∀ o t, turn → (s.region c).regOps.find? (fun p => p.id == q.id) = some o → q.c = 0 → q.agen = 0 →
      let reg := if o.writes = [] then o.src else o.dst
      let w := s.ctrlOf c reg
      let p := o.part w 0
      let ends := fun (x : State) (last : State) => if 1 < partCount reg w
        then (x.updReq q.id (fun k => { k with agen := 1, c := 0 })).retryReq q.id else last
      ((∃ i, q.kind = .tileLoad i) → o.writes ≠ [] → Translates s q p.1.toNat p.2 false t → Served s q p.1.toNat false t →
        let v := servedAt s q p.1.toNat false t
        let x := v.writePart c reg w 0 0 (v.readPhysBytes t.pa p.2)
        exec .pageWalk s = .next (ends x ((x.dropReq q.id).dueEvent .tileWriteComplete { cluster := c, id := o.id }))) ∧
      ((∃ i, q.kind = .tileStore i) → o.writes = [] → Translates s q p.1.toNat p.2 true t → Served s q p.1.toNat true t →
        let v := servedAt s q p.1.toNat true t
        let x := v.writePhys t.pa (v.readPart c reg w 0 0 p.2)
        exec .pageWalk s = .next (ends x ((x.dropReq q.id).finishReg c o (.narrow 0))))) ∧
    (∀ t u, Walking s q → s.portBehind q = false → q.kind = .load → q.agen = 0 → q.got = [] → inAperture va = true →
      Translates s q va q.size false t → (marked s q va false t).openSlot va (t.pa / 65536) = some u →
      u.mixed (t.pa / 128) = false →
      let v := u.updReq q.id (fun p => { p with sent := none })
      exec .vaultAccess s = .next (v.performed q [loadValue q (v.readPhysBytes t.pa q.size)])) ∧
    (let e := s.cur.index
     let page := s.nextFreePage
     s.hasFreePage = true → s.readPhysNat e 8 % 2 = 0 → s.readPhysNat e 8 / 4 % 4 = 1 → q.kind = .load → (s.region q.cluster).halted = false →
     s.inLentPage (e / 128 * 128) = false → s.inLentPage (s.freePageAt / 128 * 128) = false → s.farLines = [] → ∃ x : State,
       exec .demandPageService s
         = .next ((x.writePhys e (bytesOfNat 8 (page / 2 ^ 16 % 2 ^ 36 * 2 ^ 16 + 0x47))).retryReq q.id) ∧
       x.regs = { s.regs with fpcons := s.regs.fpcons + 1 } ∧
       ∀ a, x.mem.get a = if page ≤ a ∧ a < page + 65536 then unlistedByte else s.mem.get a) ∧
    (q.cluster ≠ 64 → s.isKilled q = false → q.stage = .performed → s.inReplyOrder q = true → (∀ e ∈ s.spanReqs, e.id ≠ q.id) →
      let r := s.recAt c q.station
      (q.result = [] → exec .memoryReply s = .next (s.endReq q)) ∧
      (∀ v, q.result = [v] → exec .memoryReply s = .next ((s.dropReq q.id).answerTo c q.station q.id g v v)) ∧
      (∀ v w, q.result = [v, w] → exec .memoryReply s = .next ((s.dropReq q.id).answerTo c q.station q.id g v w)) ∧
      ∀ v w : Value,
        (r.t0.valid = false → r.t1.valid = false → s.answerTo c q.station q.id g v w = s.replyDown c g) ∧
        (r.t0.valid = true ∨ r.t1.valid = true → s.answerTo c q.station q.id g v w =
          let n := (if r.t0.valid then 1 else 0) + (if r.t1.valid then 1 else 0)
          let put := fun (x : State) (k : Target) (y : Value) => if k.valid then x.sendToken q.station
            { cluster := c, station := k.addr.toNat, port := k.port, kind := .data, value := y, tag := g, reply := some q.id } else x
          put (put (s.updRegion c (fun k => { k with answers := k.answers ++ [(q.id, g, n)] })) r.t0 v) r.t1 w)) ∧
    (∀ n, (s.region c).answers = [(q.id, g, n)] →
      ((s.spend c g (some q.id)).counts c (tagCtx g)).replies
        = (s.counts c (tagCtx g)).replies - (if n ≤ 1 then 1 else 0))

/-- An atomic at its home, once, writes the new value of its operation over the old, of 4 bytes or, for a scalar 16-bit
AFADD, 2, and answers with the old value, ACAS also with its success and nothing where NR is set; a replay gets the kept
reply. PSIG takes its count off PEND, and turns the phase where PEND reaches 0. A take that the pool covers, with no
waiter before it, takes n off the pool, answers n, and brings its cluster with the reply a refill of the size of R368
where it may have one. A refill gives its cluster a slab with AMOUNT and CEIL as the reply reaches it. A recalled
cluster answers with its slab and drops it, or without one. An answer brings its units home and counts for the recall in
progress. A plain write to a counter line recalls the holders first. That a scalar 16-bit AFADD is of 2 bytes, and its
old value with it, is the model's choice (log 73); QHOST's bound on a refill is of R429. (R237, R238, R239, R240, R241,
R249, R363, R366, R367, R368, R369, R429) -/
def Obligations.HomeEvents : Prop :=
  ∀ (s : State),
    let x := s.cur
    let c := x.cluster
    let line := x.index
    let idle := (s.quarryOf line).recalled = none ∧ (s.quarryOf line).arrived = [] ∧ (s.quarryOf line).writing = none
    let atHead := fun (a : Arrival) => (s.updQuarry line (fun h => { h with arrived := [a] })).updQuarry line (fun h =>
      { h with writing := none })
    (∀ q v, s.req? x.id = some q → s.kept q = some v → exec .atomicAtHome s = .next (s.performed q v)) ∧
    (∀ q, s.req? x.id = some q → s.kept q = none → s.inLentPage x.index = false → s.specOf q.cluster q.tag = none →
      s.isSpec q.cluster q.tag = false → s.mixed (x.index / 128) = false →
      (∀ op, q.kind = .atomic op → op ≠ .fadd →
        let old : Word := BitVec.ofNat 32 (s.readPhysNat x.index 4)
        let v := if op = .cas then [Value.narrow old, .narrow (if old = q.b then 1 else 0)]
          else if q.flags.getLsbD 0 then [] else [.narrow old]
        let u := match atomicValue op old q.b q.c with
          | some new => s.writePhys x.index (bytesOfNat 4 new.toNat)
          | none => s
        exec .atomicAtHome s = .next ((u.keep q v).performed q v)) ∧
      (q.kind = .atomic .fadd → q.fmt.toNat ≤ 2 → (q.flags.getLsbD 1 = true → q.fmt.toNat ≠ 0) →
        let n := if q.fmt ≠ 0 ∧ q.flags.getLsbD 1 = false then 2 else 4
        let code := q.fmt.toNat
        let old : Word := BitVec.ofNat 32 (s.readPhysNat x.index n)
        let v := if q.flags.getLsbD 0 then [] else [Value.narrow old]
        ∃ new : Word, FLanes code (q.flags.getLsbD 1) new (fun i =>
            roundTo code 0 false 0 ((numAt code old i).add 0 (numAt code q.b i))) ∧
          exec .atomicAtHome s = .next (((s.writePhys x.index (bytesOfNat n new.toNat)).keep q v).performed q v)) ∧
      (q.kind = .phaser .sig → 0 < q.b.toNat → q.b.toNat < 65536 →
        let phase := s.readPhysNat x.index 4
        let w1 := s.readPhysNat (x.index + 4) 4
        let pend := s.readPhysNat (x.index + 8) 4 % 65536
        q.b.toNat ≤ pend →
        let turns := pend = q.b.toNat ∧ 0 < w1 % 65536
        let p := if turns then (phase + 1) % 2 ^ 32 else phase
        let m := if turns then w1 % 65536 else pend - q.b.toNat
        exec .atomicAtHome s = .next ((((s.writePhys x.index (bytesOfNat 4 p ++ bytesOfNat 4 (w1 % 2 ^ 26) ++
          bytesOfNat 4 m)).wakePhaser (x.index / 128)).keep q [.narrow (BitVec.ofNat 32 p)]).performed q
          [.narrow (BitVec.ofNat 32 p)]))) ∧
    (∀ q, x.id ≠ 0 → s.req? x.id = some q → q.kind = .quarry .take → s.kept q = none → x.amount = none →
      s.sentBefore true c line x.station = false → s.inLentPage (line * 128) = false → idle → s.quarryRival line c = false →
      (s.quarryOf line).waiters = [] →
      let k := s.counter line
      k.init = true → k.lost = false → q.b.toNat ≤ k.pool →
      let fills := x.go = false ∧ policyHome k.policy = false ∧ (s.quarryOf line).sent.getD q.cluster 0 = x.queue
      s.mixed line = false →
      let u := (atHead { id := x.id, received := x.queue, shr := x.go, cycle := s.cycle, rank := c }).putCounter line
        { k with pool := k.pool - q.b.toNat }
      (fills → exec .quarryHomeRequest s = .next ((u.grantTake q line true).updQuarry line (fun h => { h with arrived := [] }))) ∧
      (¬ fills → exec .quarryHomeRequest s = .next ((u.homeReply q [.narrow q.b]).updQuarry line
        (fun h => { h with arrived := [] })))) ∧
    (∀ q : MemReq, s.mixed line = false →
      let k := s.counter line
      let held := (q.cluster :: k.holders.filter (fun h => h != q.cluster)).length
      let g := if s.regs.dmode.getLsbD 1 then min k.pool (slabMin k.policy)
        else min k.pool (max (slabMin k.policy) (min (slabMax k.policy) (k.pool / (2 * held))))
      (g = 0 → s.grantTake q line true = s.homeReply q [.narrow q.b]) ∧
      (g ≠ 0 → ∃ t : State, s.grantTake q line true = t.sendQuarry .quarryRefill
          { cluster := q.cluster, index := line, id := q.id, amount := some g } ∧
        (t.quarryOf line).sent.getD q.cluster 0 = (s.quarryOf line).sent.getD q.cluster 0 + 1 ∧
        t.mem = (s.putCounter line { k with
          pool := k.pool - g, ceilSum := k.ceilSum + g,
          holders := (List.range 64).filter (fun h => h == q.cluster || k.holders.contains h) }).mem ∧
        ∀ p, t.req? q.id = some p → p.stage = .performed ∧ p.result = [.narrow q.b])) ∧
    (s.sentBefore false c line x.station = false → (s.region c).slabs.length < 256 → ∃ t : State,
      exec .quarryRefill s = .next (t.dueNow .memoryReply { id := x.id }) ∧ (t.region c).slabs.get? line
        = some { amount := x.amount.getD 0, ceil := x.amount.getD 0, used := s.ticks } ∧
      (t.region c).refills.getD line 0 = (s.region c).refills.getD line 0 + 1 ∧ t.mem = s.mem) ∧
    (s.sentBefore false c line x.station = false → s.slabStruck c line = false → ∃ (t : State) (y : Site),
      exec .quarryRecall s = .next t ∧ (t.region c).slabs.get? line = none ∧ .event .quarryRecallAnswer y ∈ t.agenda ∧
      y.cluster = c ∧ y.index = line ∧ y.hasC = false ∧ y.amount = (s.slab? c line).map (fun b => b.amount) ∧
      y.word = BitVec.ofNat 32 (((s.slab? c line).map (fun b => b.ceil)).getD 0)) ∧
    (s.sentBefore true c line x.station = false →
      let u := match x.amount with
        | some a => s.endSlab line c a x.word.toNat
        | none => s
      (x.hasC = true → exec .quarryRecallAnswer s = .next (u.pumpLine line)) ∧
      (x.hasC = false → exec .quarryRecallAnswer s = .next ((u.updQuarry line (fun h =>
        { h with awaited := h.awaited.filter (fun d => d != c), answers := h.answers + 1 })).endRecall line))) ∧
    (∀ q, x.hasC = false → x.id ≠ 0 → s.req? x.id = some q → q.kind = .store → idle → s.quarryRival line c = false →
      s.holdsSlabs line = true → exec .counterLineWrite s
        = .next (((atHead { id := x.id, cycle := s.cycle, rank := c }).startRecall line x.id).endRecall line)) ∧
    (x.hasC = true → (s.counter line).init = false → (s.quarryOf line).waiters = [] →
      exec .counterLineWrite s = .next (s.updQuarry line (fun h => { h with waiters := [] })))

/-- RDS, RDX and UPG of a cluster that find nothing of the line in hand at their die's point, and room in its L2, go to
the home where the die has no sufficient state, and are granted with DATA where it has and no other L1 of the die holds
the line: M for an exclusive request, E for a read of a line that no other cache of the device holds, S otherwise; an
UPG of a recorded cluster without the bytes. DATA installs the line in the granted state. FWDS and FWDX at an L1 that
holds the line send its data and leave S or I, INV leaves I and answers IACK with the data of an M copy. EVS and EVD
remove the record of the cluster and answer EACK, which frees the entry of the eviction buffer. IACK counts down the
answers that a point awaits. (R330, R331, R332, R333, R334) -/
def Obligations.CoherenceMessages : Prop :=
  ∀ (s : State),
    let m := s.cur.msg
    let line := m.line
    (∀ d c, m.dst = .die d → m.src = .l1 c → s.cur.hasC = false → (s.die d).txns.get? (ownKey line) = none →
      (s.die d).txns.get? (forwardKey line) = none → (s.die d).evicting.get? line = none → s.waitingAt d line = [] →
      s.rival (.die d) line c = false →
      let begins := fun (i : Instr) (p : State → Prop) =>
        let arrived := s.updDie d (fun k => { k with
          waiting := k.waiting.set line [{ cycle := s.cycle, rank := c, instr := i, site := { msg := m } }] })
        ∀ u, arrived.allocate d line = some u → p (u.updDie d (fun k => { k with waiting := k.waiting.erase line }))
      let asks := fun (i j : Instr) (v : State) => ∃ t : State, exec i s = .next t ∧
        .event j { msg := { src := .die d, dst := .home (homeOf line), line := line, requester := .l1 c, state := .i,
                            data := none } } ∈ t.agenda ∧ t.mem = v.mem ∧ t.regions = v.regions
      let grants := fun (i : Instr) (st : LineState) (bare : Bool) (v : State) => ∃ t : State, exec i s = .next t ∧
        .event .data { msg := { src := .die d, dst := .l1 c, line := line, requester := .l1 c, state := st,
                                data := if bare then none else some (v.lineNow line) } } ∈ t.agenda ∧
        t.holdersOf d line = [(c, st)] ∧ t.mem = v.mem ∧ t.regions = v.regions
      let alone := fun (v : State) => homeOf line = d ∧ isHostLine line = false ∧ v.offCache line = false ∧
        without c (v.holdersOf d line) = []
      let owned := fun (v : State) => v.dieState line d = .m ∨ v.dieState line d = .e
      let sole := fun (v : State) => (v.dirOf line).txn = none ∧ (v.dirOf line).host = .i ∧
        ∀ n < 4, n ≠ d → (v.dirOf line).dies.getD n .i = .i
      begins .rds (fun v => (v.dieState line d = .i → asks .rds .rds v) ∧
        (alone v → (owned v → grants .rds .e false v) ∧
          (v.dieState line d = .s ∨ v.dieState line d = .o → (sole v → grants .rds .e false v) ∧
            (¬ sole v → grants .rds .s false v)))) ∧
      begins .rdx (fun v => (¬ owned v → asks .rdx .rdx v) ∧ (alone v → owned v → grants .rdx .m false v)) ∧
      begins .upg (fun v => (¬ owned v → asks .upg .rdx v) ∧ (alone v → owned v →
        grants .upg .m ((v.holdersOf d line).any (fun h => h.1 == c)) v))) ∧
    (∀ c, m.dst = .l1 c → (s.region c).evicting.length < 16 → s.offCache line = false → ∃ t : State, exec .data s = .next t ∧
      (t.region c).l1.get? line = some { state := m.state, data := s.lineNow line }) ∧
    (∀ c l, m.dst = .l1 c → (s.region c).l1.get? line = some l →
      let sends := fun (i j : Instr) (st : LineState) (data : Option Wide) (left : Option L1Line) => ∃ t : State,
        exec i s = .next t ∧ (t.region c).l1.get? line = left ∧
        .event j { msg := { src := .l1 c, dst := m.src, line := line, requester := m.requester, state := st, data := data } }
          ∈ t.agenda
      sends .fwds .data l.state (some l.data) (some { l with state := .s }) ∧
      sends .fwdx .data l.state (some l.data) none ∧
      (l.state = .m → sends .inv .iack .m (some l.data) none) ∧
      (l.state ≠ .m → sends .inv .iack .i none none)) ∧
    (∀ d c, m.dst = .die d → m.src = .l1 c →
      let leaves := fun (i : Instr) => ∃ t : State, exec i s = .next t ∧ (∀ h ∈ t.holdersOf d line, h.1 ≠ c) ∧
        .event .eack { msg := { src := .die d, dst := .l1 c, line := line, requester := .l1 c, state := .i, data := none } }
          ∈ t.agenda
      leaves .evs ∧ leaves .evd) ∧
    (∀ c, m.dst = .l1 c → ∃ t : State, exec .eack s = .next t ∧ Within c s t ∧ (t.region c).evicting.get? line = none) ∧
    (∀ d c o k, m.dst = .die d → m.src = .l1 c → m.data = none → (s.die d).txns.get? (forwardKey line) = none →
      (s.die d).txns.get? (ownKey line) = some k → k.msg.src = .l1 o → 1 < k.acks → ∃ t : State,
      exec .iack s = .next t ∧ (t.die d).txns.get? (ownKey line) = some { k with acks := k.acks - 1 } ∧
      (∀ h ∈ t.holdersOf d line, h.1 ≠ c) ∧ t.mem = s.mem ∧ t.regions = s.regions)

/-- The head of a trigger queue is discarded with NOTARMED where the template is IDLE or ERROR, and otherwise starts its
copy: BUSY, the descriptor and index fixed, the read of element 0 at SRC + i SSTEP, one reply outstanding. After the
last element the template is ARMED again with its saturations and the reply no longer counts. A copy that meets a fault,
or that another device or the link refuses, leaves ERROR with FAULT and takes its trap. Words of an unbound tag add to
its count, up to 2^32 - 1; a bound tag whose count has reached EXP takes EXP off it and sends the phase number, or in
flag mode has the number of completed phases written to its flag. The part of another cluster for a tag without a round
opens one that counts as a token in flight. Which trap code stands for a refused or lost link, and that code 0 is
ACCESS, is the model's reading (log 62). (R252, R254, R257, R258, R260, R261, R262, R263, R412, R414, R435, R437) -/
def Obligations.CopyAndChannelEvents : Prop :=
  ∀ (s : State),
    let c := s.cur.cluster
    let k := s.cur.index
    let t := s.template c k
    let first := fun (i g : Word) => ({ index := i, tag := g, desc := t.desc, next := 0, sat := 0, req := s.nextId } : CopyRun)
    (∀ e rest, t.queue = e :: rest → t.run = none → s.runs c e.tag = true →
      let g := e.tag
      (t.state = .idle ∨ t.state = .error → ∃ u : State, exec .copyTrigger s = .next u ∧ Within c s u ∧
        u.template c k = { t with err := 8, queue := rest } ∧
        (u.counts c (tagCtx g)).flight = (s.counts c (tagCtx g)).flight - 1) ∧
      (t.state ≠ .idle → t.state ≠ .error → descRemote t.desc = false ∨ s.isSpec c g = false →
        (∀ id ∈ e.after, id ∉ s.issuedOf c g) →
        ∃ (u : State) (q : MemReq), exec .copyTrigger s = .next u ∧ u.reqs = s.reqs ++ [q] ∧ q.id = s.nextId ∧
          q.kind = .copyRead k ∧ q.tag = g ∧ q.cluster = c ∧ q.size = descEsize t.desc ∧
          q.va = BitVec.ofNat 64 (descNat t.desc 0 8 + e.index.toNat * descNat t.desc 0x10 8) ∧
          u.template c k = { t with state := .busy, queue := rest, run := some (first e.index g) } ∧
          (e.reply = none → (u.counts c (tagCtx g)).replies = (s.counts c (tagCtx g)).replies + 1) ∧
          .event .pageWalk { id := s.nextId } ∈ u.agenda)) ∧
    (∀ q r, s.req? s.cur.id = some q → t.run = some r → q.stage ≠ .away → descCount r.desc ≤ r.next → q.cluster = c →
      q.counted = true →
      ∃ u : State, exec .copyComplete s = .next u ∧
        u.template c k = { t with run := none, sat := BitVec.ofNat 16 (min r.sat 65535),
                                  state := if t.state = .busy then .armed else t.state } ∧
        u.reqs = s.reqs.filter (fun p => p.id != q.id) ∧
        (u.counts c (tagCtx q.tag)).replies = (s.counts c (tagCtx q.tag)).replies - 1) ∧
    (∀ q r, s.req? s.cur.id = some q → t.run = some r →
      let tr := match q.stage with
        | .held tr => tr
        | _ => if s.cur.word = 0 then .access else Trap.ofCode s.cur.word.toNat
      ∃ u : State, exec .copyFault s = .next ((u.takeTrapAt tr q.cluster q.station q.tag 0 0 (s.cur.amount.getD q.va.toNat) r.next
        (q.kindCode false) []).nextTrigger c k) ∧
      u.template c k = { t with run := none, state := .error, err := 6 } ∧
      u.reqs = s.reqs.filter (fun p => p.id != q.id) ∧ u.mem = s.mem) ∧
    (∀ tr ∈ [Trap.illegal, .badTarget, .align, .page, .access, .quarry, .machineCheck], Trap.ofCode tr.code = tr) ∧
    (∀ n, 0 < n → s.cur.amount = some n → s.binder k = none →
      exec .channelArrival s = .next { s with channels := s.channels.set k (min (s.channelCount k + n) (2 ^ 32 - 1)) }) ∧
    (∀ d st b, s.cur.amount = none → s.binder k = some (d, st, b) → b.exp.toNat ≤ s.channelCount k →
      let w := { s with channels := s.channels.set k (s.channelCount k - b.exp.toNat) }.setBinding d st
        { b with phase := b.phase + 1 }
      let u := match w.specOf d b.tag with
        | some (q, x) => if (w.binderCtx d b).isSome then
            w.updFerry q (fun f => { f with spec := some { x with taken := (k, b.exp.toNat) :: x.taken } }) else w
        | none => w
      let pa := s.regs.flagbase.toNat + 8 * b.channel.toNat
      let bytes := bytesOfNat 8 (b.phase + 1)
      (b.flag = false → s.runs d b.tag = true →
        let v : Value := .narrow (BitVec.ofNat 32 b.phase)
        let r := u.recAt d st
        exec .channelArrival s = .next (((u.emitTo d st r.t0 v b.tag).emitTo d st r.t1 v b.tag).dueOnce
          (.event .channelArrival { index := k }))) ∧
      (b.flag = true → ∃ x : State, exec .channelArrival s = .next (x.dueOnce (.event .channelArrival { index := k })) ∧
        (u.binderCtx d b = none →
          let late := fun (q : MemReq) => q.kind = .flagWrite ∧ q.va.toNat = pa ∧ q.stage ≠ .performed ∧ ∀ e ∈ u.spanReqs, e.id ≠ q.id
          ((∀ q ∈ u.reqs, ¬ late q) → x = u.writePhys pa bytes) ∧
          ((∃ q ∈ u.reqs, late q) → x.mem = u.mem ∧ x.reqs.length = u.reqs.length ∧
            ∀ (i : Nat) q, u.reqs[i]? = some q → ∃ r, x.reqs[i]? = some r ∧ (¬ late q → r = q) ∧
              (late q → r = { q with data := bytes }))) ∧
        ((u.binderCtx d b).isSome = true → ∃ q : MemReq, x = (u.addReq q).dueEvent .pageWalk { id := q.id } ∧
          q.id = u.nextId ∧ q.kind = .flagWrite ∧ q.cluster = d ∧ q.station = st ∧ q.tag = b.tag ∧ q.data = bytes ∧
          q.va = BitVec.ofNat 64 pa))) ∧
    (let p := s.cur.part
     let new : Round := { station := p.station, tag := p.tag, group := p.group, count := p.count, seen := 0, part := 0,
                          parts := [(p.src, p.value)], bad := false }
     ∀ x, s.cur.id ≠ 0 → s.earlierPart s.cur = false → s.ctxAt p.dst (tagCtx p.tag) = some x → x.killed = false →
      p.bad = false → p.src ≠ p.dst → (∀ e ∈ (s.region p.dst).rounds, ¬ (e.station = p.station ∧ e.tag = p.tag)) → ∃ u : State,
      exec .joinPartArrival s = .next u ∧ u.agenda = s.agenda ∧
      (u.region p.dst).rounds = (s.region p.dst).rounds ++ [new] ∧
      (u.counts p.dst (tagCtx p.tag)).flight = (s.counts p.dst (tagCtx p.tag)).flight + 1 ∧
      (u.counts p.src (tagCtx p.tag)).exports = (s.counts p.src (tagCtx p.tag)).exports - 1)

/-- A record that another device sent enters the queue of its node and is answered. A flit replay changes nothing. A
port that goes down or comes up is known as such, and a request that finds no live port for 100,000 counts is held with
ACCESS. An access of another device is performed on the line as every agent sees it and answered; a request of the host
waits for its turn in the directory of the line, which it has at once where nothing of the line is in hand and no die
holds a copy that its own may not stand beside, and is then performed and answered; an element of a remote copy is
written through IMPROOT and its words counted, or refused with its trap code. A soft error that no access meets is
logged, and a counter line in which it stands is LOST; one in the slab entry of a cluster loses the slab, and the
counter with it. That an access of another device that meets a soft error is answered with the trap code is the model's
reading (log 59), and so are the codes of a refused element (log 62). (R267, R329, R337, R376, R431, R433, R435, R436,
R437, R453) -/
def Obligations.LinkEvents : Prop :=
  ∀ (s : State),
    let x := s.cur
    (∀ e, x.ingress = e → ((s.region e.cluster).ingress.getD e.node []).length < 64 → ∃ u : State,
      exec .xsendRecordArrival s = .next u ∧
      (u.region e.cluster).ingress.getD e.node [] = (s.region e.cluster).ingress.getD e.node [] ++ [e] ∧
      (u.region e.cluster).asleep = false ∧ u.outbox = s.outbox ++ [(x.id, [], 0)] ∧
      .fire e.cluster (0x1910 + e.node) 0 ∈ u.agenda) ∧
    exec .spanFlitReplay s = .next s ∧
    (∃ u : State, exec .spanPortDown s = .next u ∧ (∀ p, p ∈ u.spanDown ↔ (p = x.index ∨ p ∈ s.spanDown)) ∧ u.mem = s.mem) ∧
    (∃ u : State, exec .spanPortUp s = .next u ∧ (∀ p, p ∈ u.spanDown ↔ (p ≠ x.index ∧ p ∈ s.spanDown)) ∧ u.mem = s.mem) ∧
    (∀ e q, s.spanReqs.find? (fun e => e.id == x.id) = some e → s.req? x.id = some q → s.linkUp e = false →
      (∀ n, x.amount = some n → n + 100000 ≤ s.refCount) → 100000 ≤ s.refCount → q.cluster ≠ 64 → (∀ k, q.kind ≠ .copyWrite k) →
      exec .spanRouteTimeout s
        = .next ({ s with spanReqs := s.spanReqs.filter (fun e => e.id != q.id) }.holdReq q .access q.va.toNat false)) ∧
    (s.takesWrites = true →
      (let a := x.access
       let pa := a.addr % 2 ^ 39
       s.inLentPage pa = false → a.far = none →
       (s.poisoned.contains (pa / 128) = true → exec .spanAccessRequest s
          = .next (({ s with poisoned := s.poisoned.filter (fun l => l != pa / 128)
                             errors := s.errors.erase (pa / 128) }.loseCounter (pa / 128)).answer x.id [] 12)) ∧
       (s.poisoned.contains (pa / 128) = false →
         (a.write = true → s.slabsOut (pa / 128) = false →
           exec .spanAccessRequest s = .next ((s.writePhys pa a.data).answer x.id [] 0)) ∧
         (a.write = false → exec .spanAccessRequest s = .next (s.answer x.id (s.readPhysBytes pa a.size) 0)))) ∧
      (let h := x.host
       let line := h.addr / 128
       let e := s.dir.getD line {}
       let turn := (s.residentSlot (line / 512)).isSome = true ∨ s.hostGranted line x.id = true
       let marked := fun (st : LineState) =>
         (if s.offCache line = true ∨ isHostLine line = true then s else s.updDir line (fun e => { e with host := st })).completeHome line
       let alone := ∀ n, n < 4 → (s.dirOf line).dies[n]? = some .i
       s.within h.addr = true → h.addr % 128 + h.data.length ≤ 128 → s.inLentPage h.addr = false → s.hostBehind line = false →
       (turn → s.poisoned.contains line = false →
         (h.write = true → s.slabsOut line = false →
           exec .hostCoherentRequest s = .next (((marked .m).writePhys h.addr h.data).answer x.id [] 0)) ∧
         (h.write = false → ∃ st : LineState, exec .hostCoherentRequest s
             = .next ((marked st).answer x.id (wideBytes ((marked st).lineNow line)) 0) ∧
           ((s.dirOf line).host ≠ .m → (s.dirOf line).dies.length = 4 → (alone → st = .e) ∧ (¬ alone → st = .s)))) ∧
       (¬ turn → s.hostQueued line x.id = false → ∃ t : State, exec .hostCoherentRequest s = .next t ∧
         .event .hostCoherentRequest { x with hasC := true } ∈ t.agenda ∧
         (e.txn = none → e.waiting = [] → s.rival (.home (homeOf line)) line (2 * (line % 2) + 1) = false → ∀ u,
           ({ s with dir := s.dir.set line { e with
             waiting := [{ cycle := s.cycle, rank := 2 * (line % 2) + 1, instr := .hostCoherentRequest, site := x }] } } : State).allocate (homeOf line) line = some u →
           (∀ n, n < 4 → let d := (u.dirOf line).dies.getD n .i; if h.write then d = .i else d ≠ .m ∧ d ≠ .e) →
           t.hostGranted line x.id = true))) ∧
      (let e := x.remote
       x.hasC = false → s.farLines = [] →
       (∀ l ∈ s.importTables e.va, s.inLentPage (l * 128) = false ∧ s.poisoned.contains l = false) →
       (∀ t, e.va % 128 + e.data.length ≤ 128 → s.importWalk e.va = .ok t → s.inLentPage t.pa = false →
         (s.physPlace t.pa = .hbm ∨ s.physPlace t.pa = .host) → s.slabsOut (t.pa / 128) = false → inAperture e.va = false →
         (∀ a ∈ t.pa :: t.walked, s.poisoned.contains (a / 128) = false) →
         exec .remoteCopyElement s
           = .next ((((s.markImport t).writePhys t.pa e.data).countImport e x.amount).answer x.id [] 0)) ∧
       (∀ n, e.va % 128 + e.data.length ≤ 128 → s.importWalk e.va = .error n →
         exec .remoteCopyElement s = .next (s.answer x.id [] n)))) ∧
    (let entry : LogEntry := { time := BitVec.ofNat 64 s.refCount, die := x.error.die, unit := x.error.unit, kind := x.error.kind }
     let logged := fun (u : State) => u.toll.log = (entry :: s.toll.log).take 256 ∧ u.toll.unread = true
     (x.error.line = none → ∃ u : State, exec .softErrorScrub s = .next u ∧ logged u ∧ u.mem = s.mem) ∧
     (∀ line, x.error.line = some line → x.error.slab = none →
       (x.go = true → ∃ u : State, exec .softErrorScrub s = .next u ∧ line ∈ u.poisoned ∧
         .event .softErrorScrub { x with go := false } ∈ u.agenda) ∧
       (x.go = false → line ∈ s.poisoned → ∃ u : State, exec .softErrorScrub s = .next u ∧ line ∉ u.poisoned ∧ logged u ∧
         ((s.quarry.get? line).isSome = true → ∃ w : State, w = { s with poisoned := s.poisoned.filter (fun l => l != line), errors := s.errors.erase line } ∧
           u.mem = (w.writePhys (line * 128 + 8)
             (bytesOfNat 4 (w.readPhysNat (line * 128 + 8) 4 ||| 0x40000000))).mem))) ∧
     (∀ line c, x.error.line = some line → x.error.slab = some c →
       let mine := (s.region c).slabs.get? line
       (x.go = true → mine = none → ∃ u : State, exec .softErrorScrub s = .next u ∧ logged u ∧ u.mem = s.mem) ∧
       (x.go = true → mine ≠ none → ∃ u : State, exec .softErrorScrub s = .next u ∧ Within c s u ∧
         (u.region c).struckSlabs.get? line = some x.error ∧ .event .softErrorScrub { x with go := false } ∈ u.agenda) ∧
       (x.go = false → mine ≠ none → (s.region c).struckSlabs.get? line ≠ none → (s.quarry.get? line).isSome = true →
         ∃ u : State, exec .softErrorScrub s = .next u ∧ (u.region c).slabs.get? line = none ∧ logged u ∧
         ∃ w : State, Within c s w ∧ u.mem = (w.writePhys (line * 128 + 8)
           (bytesOfNat 4 (w.readPhysNat (line * 128 + 8) 4 ||| 0x40000000))).mem)))

/-- In a READY device a GO while HOSTAT is not IDLE is ignored. A GO for a page that is misaligned, not local, or an
unknown borrower leaves ERROR; any other leaves MOVING, with no line of the page in an L1 and its 64 KiB on their way to
the borrower. END in FORWARDING returns to IDLE with no page lent, and the clearing of HOCTL in ERROR returns to IDLE.
At the borrower an arriving page takes the next free page, holds the bytes and answers its address, or is refused while
the ring is empty. At the lender the borrower's address leaves FORWARDING and HONEW, and the device's own accesses that
waited go on to it, a refusal ERROR. The model's own reading: the bits of HOCTL that are stored, and that END outside
FORWARDING stores them alone (log 56); what the device has asked for at the new home for its own accesses, and what ends
with END (log 57). (R338, R430, R440) -/
def Obligations.HandOver : Prop :=
  ∀ (s : State) (v : Word), s.takesWrites = true →
    let pa := s.regs.hopage.toNat
    let d := v.toNat % 4096
    let bad := pa % 65536 ≠ 0 ∨ 2 ^ 39 ≤ pa ∨ s.regs.route.getD d 0 = 0 ∨ d = s.regs.devid.toNat % 4096
    (s.regs.hostat ≠ 0 → exec (.handoverGo v) s = .next s) ∧
    (s.regs.hostat = 0 → bad → exec (.handoverGo v) s
      = .next { s with regs := { s.regs with hoctl := v &&& 0xC0000FFF#32, hostat := 3 } }) ∧
    (s.regs.hostat = 0 → ¬ bad → ∃ u : State, exec (.handoverGo v) s = .next u ∧
      u.regs = { s.regs with hoctl := v &&& 0xC0000FFF#32, hostat := 1 } ∧ u.lentPage = some (pa / 65536) ∧ u.lentTo = d ∧
      u.outbox = s.outbox ++ [(pa, u.mem.range pa 65536, 0)] ∧
      ∀ c line, line / 512 = pa / 65536 → (u.region c).l1.get? line = none) ∧
    (s.regs.hostat = 2 → ∃ u : State, exec (.handoverEnd v) s = .next u ∧
      u.regs = { s.regs with hoctl := v &&& 0xC0000FFF#32, hostat := 0 } ∧ u.lentPage = none ∧ u.farLines = [] ∧
      (∀ q ∈ u.reqs, q ∈ s.reqs ∧ ¬ (q.cluster = 64 ∧ q.station = 67)) ∧
      ((∀ e ∈ s.queues, (s.queue e.1).events = []) → u.mem = s.mem)) ∧
    (s.regs.hostat ≠ 2 → exec (.handoverEnd v) s
      = .next { s with regs := { s.regs with hoctl := v &&& 0xC0000FFF#32 } }) ∧
    (s.regs.hostat = 3 → exec .handoverClear s = .next { s with regs := { s.regs with hoctl := 0, hostat := 0 } }) ∧
    (s.regs.hostat ≠ 3 → exec .handoverClear s = .next { s with regs := { s.regs with hoctl := 0 } }) ∧
    (s.cur.hasC = false → s.farLines = [] → s.inLentPage (s.freePageAt / 128 * 128) = false →
      (s.regs.fpprod = s.regs.fpcons → exec .handoverPageArrival s = .next (s.answer s.cur.id [] 1)) ∧
      (s.regs.fpprod ≠ s.regs.fpcons → ∃ u : State, exec .handoverPageArrival s = .next u ∧
        u.regs = { s.regs with fpcons := s.regs.fpcons + 1 } ∧
        u.outbox = s.outbox ++ [(s.cur.id, bytesOfNat 8 s.nextFreePage, 0)] ∧
        ∀ i b, i < 65536 → s.cur.access.data[i]? = some b → u.mem.get (s.nextFreePage + i) = b)) ∧
    (s.cur.hasC = true → s.regs.hostat = 1 →
      (∀ new, s.cur.amount = some new → ∃ u : State, exec .handoverPageArrival s = .next u ∧
        u.regs = { s.regs with hostat := 2, honew := BitVec.ofNat 64 new } ∧ u.lentPage = s.lentPage ∧
        ((∀ e ∈ s.queues, (s.queue e.1).events = []) → u.mem = s.mem) ∧
        ∀ q ∈ s.reqs, q.cluster = 64 → q.station = 64 → s.inLentPage q.va.toNat = true → ∀ r ∈ s.spanReqs, r.id = q.id →
          { r with addr := new + r.addr % 65536 } ∈ u.spanReqs) ∧
      (s.cur.amount = none → ∃ u : State, exec .handoverPageArrival s = .next u ∧ u.regs.hostat = 3 ∧ u.lentPage = none))

/-- Every write completes. Before the device is READY none acts, but for the recovery registers of a device in RECOVERY.
In a READY device a register that software writes reads back the value written under its mask, and a read-only one keeps
its value; FPPROD, SVPROD, EGCONS and EVHEAD take the value, and an event that waits is posted with its SEAL last where
there is room; QCTL keeps EN and the mode bits, clamps EVLOG2 to 5 to 12 and shows PRIV for q0 to q3 alone; a hint slot
takes the bytes, and in host-hint mode the speculation of its queue is discarded; EGCTL clamps EGLOG2 to 4 to 12; a
ROUTE entry holds the mask written, transfers begun before keeping theirs; WINBASE is a register of q0 to q3 alone; a
write of BOOTSTAT with RST starts a device reset, and one without changes nothing; on q4 to q63 the SEAL of an aperture
hands its packet to an enabled queue, is kept in order by a disabled one, and is held back past sixteen; an ingress
record enters the queue of its node and wakes the cluster, and is held back while the queue has 64. That a hint write
lets a stopped queue speculate again is the model's reading (log 53). (R397, R398, R399, R402, R410, R430, R433, R434,
R445, R446, R450) -/
def Obligations.RegisterWrites : Prop :=
  ∀ (s : State) (v : Word) (q : Nat) (data : List Byte), q < 64 →
    (s.takesWrites = false →
      exec (.fpprodWrite v) s = .next s ∧ exec (.svprodWrite v) s = .next s ∧ exec (.egconsWrite v) s = .next s ∧
      exec (.evheadWrite q v) s = .next s ∧ exec (.qctlWrite q v) s = .next s ∧ (4 ≤ q → exec (.apertureSeal q) s = .next s) ∧
      (∀ off, exec (.hintWrite q off data) s = .next s) ∧ (∀ c n w, exec (.ingressRecord c n v w) s = .next s) ∧
      (s.toll.boot ≠ .recovery → ∀ off, exec (.registerWrite off data) s = .next s)) ∧
    (s.toll.boot = .recovery →
      (data.length = 4 → exec (.registerWrite 0xA8 data) s
        = .next { s with toll := { s.toll with rcvlen := BitVec.ofNat 32 (natOfBytes data) } }) ∧
      (∀ a, a + data.length ≤ 2 ^ 24 → exec (.registerWrite (0x1000000 + a) data) s
        = .next { s with toll := { s.toll with staging := s.toll.staging.putRange a data } })) ∧
    (s.takesWrites = true →
      exec (.fpprodWrite v) s = .next { s with regs := { s.regs with fpprod := v } } ∧
      exec (.egconsWrite v) s = .next { s with regs := { s.regs with egcons := v } } ∧
      (∃ u : State, exec (.svprodWrite v) s = .next u ∧ u.regs = { s.regs with svprod := v } ∧ u.mem = s.mem ∧
        .event .dispatchSelect {} ∈ u.agenda) ∧
      ((s.queue q).events = [] → exec (.evheadWrite q v) s = .next (s.updQueue q (fun k => { k with evhead := v }))) ∧
      (∃ u : State, exec (.evheadWrite q v) s = .next u ∧ (u.queue q).evhead = v ∧ u.regs = s.regs ∧ u.contexts = s.contexts) ∧
      (∀ e, (s.queue q).events = [e] → ((s.queue q).evtail - v).toNat < (s.queue q).ringSize →
        let at_ := (s.queue q).evbase.toNat + 128 * ((s.queue q).evtail.toNat % (s.queue q).ringSize)
        s.inLentPage at_ = false → s.slabsOut (at_ / 128) = false → ∃ x : State, x.queue q = { s.queue q with
            evhead := v, events := [], evtail := (s.queue q).evtail + 1 } ∧ x.mem = s.mem ∧
          exec (.evheadWrite q v) s = .next (x.writePhys at_ (e.bytes.take 0x38 ++ bytesOfNat 8 s.refCount ++ e.bytes.drop 0x40 ++
            [BitVec.ofNat 8 ((s.queue q).evtail.toNat / (s.queue q).ringSize % 255 + 1)]))) ∧
      (∀ off, ∃ u : State, exec (.hintWrite q off data) s = .next u ∧
        ((s.queue q).qctl.getLsbD 3 = true → (u.ferryOf q).spec = none ∧ (u.ferryOf q).hintStopped = false ∧
          .event .ferryStart { queue := q } ∈ u.agenda) ∧
        ((s.queue q).qctl.getLsbD 3 = false → u.ferry = s.ferry ∧ u.agenda = s.agenda ∧ u.mem = s.mem) ∧
        ∀ i, i < 64 → (u.queue q).hint.extractLsb' (8 * i) 8
          = if off ≤ i ∧ i < off + data.length then data.getD (i - off) 0 else (s.queue q).hint.extractLsb' (8 * i) 8) ∧
      ((s.queue q).sealed = [] → (s.queue q).events = [] → ∃ (u : State) (w : Word), exec (.qctlWrite q v) s = .next u ∧
        u.queue q = { s.queue q with qctl := w } ∧ u.mem = s.mem ∧ (w.getLsbD 31 = v.getLsbD 31) ∧
        (w.getLsbD 30 = decide (q < 4)) ∧ (w.extractLsb' 20 4).toNat = max 5 (min 12 (v.extractLsb' 20 4).toNat) ∧
        w.extractLsb' 0 5 = v.extractLsb' 0 5 ∧ w.extractLsb' 5 15 = 0 ∧ w.extractLsb' 24 6 = 0) ∧
      (∃ u : State, exec (.qctlWrite q v) s = .next u) ∧
      (4 ≤ q → (s.queue q).qctl.getLsbD 31 = true → ∃ u : State, exec (.apertureSeal q) s = .next u ∧
        ((∀ l, decodePacket q (s.queue q).aperture ≠ .ok (.launch l)) → u.mem = s.mem) ∧
        (u.queue q).pseq = (s.queue q).pseq + 1 ∧
        (∃ c : Current, (u.queue q).taken = (s.queue q).taken ++ [c] ∧ c.bytes = (s.queue q).aperture ∧
          c.pseq = (s.queue q).pseq + 1 ∧ c.begun = false)) ∧
      (4 ≤ q → (s.queue q).qctl.getLsbD 31 = false →
        ((s.queue q).sealed.length < 16 → exec (.apertureSeal q) s
          = .next (s.updQueue q (fun k => { k with sealed := k.sealed ++ [k.aperture] }))) ∧
        (16 ≤ (s.queue q).sealed.length → exec (.apertureSeal q) s
          = .next { s with agenda := .write (0x10000 + 256 * q + 0xBF) [0] :: s.agenda })) ∧
      (data.length = 4 →
        (∀ e ∈ ([(0x00, 0xFFFF0006#32), (0x08, 0xFFFFFFFF#32), (0x0C, 0xFFFFFFFF#32), (0x18, 0xFFFFFFFF#32),
          (0x1C, 0xFFFFFFFF#32), (0x40, 0xFFF#32), (0x48, 0xFFFFFFFF#32), (0x4C, 0xFFFFFFFF#32), (0x50, 0xFFFFFFFF#32),
          (0x54, 0xFFFFFFFF#32), (0x68, 0xFFFFFFFF#32), (0x6C, 0xFFFFFFFF#32), (0x70, 0xFFFFFFFF#32),
          (0x74, 0xFFFFFFFF#32)] : List (Nat × Word)), ∃ u : State, exec (.registerWrite e.1 data) s = .next u ∧
          u.readReg e.1 = BitVec.ofNat 32 (natOfBytes data) &&& e.2 ∧ u.mem = s.mem ∧ u.queues = s.queues) ∧
        (∀ o ∈ [0x04, 0x08, 0x0C, 0x10, 0x14, 0x30, 0x34], ∃ u : State,
          exec (.registerWrite (0x10000 + 256 * q + o) data) s = .next u ∧
          u.readReg (0x10000 + 256 * q + o) = BitVec.ofNat 32 (natOfBytes data) ∧ u.mem = s.mem ∧ u.regs = s.regs) ∧
        (∃ u : State, exec (.registerWrite 0x58 data) s = .next u ∧ u.readReg 0x58 = BitVec.ofNat 32 (max 4 (min 12 (natOfBytes data % 16))) ∧
          u.mem = s.mem ∧ u.queues = s.queues) ∧
        (∀ d, d % 2 = 0 → d < 4096 → ∃ u : State, exec (.registerWrite (0x4000 + 2 * d) data) s = .next u ∧
          u.readReg (0x4000 + 2 * d) = BitVec.ofNat 32 (natOfBytes data) ∧
          u.regs.route.getD d 0 = BitVec.ofNat 16 (natOfBytes data) ∧
          u.regs.route.getD (d + 1) 0 = BitVec.ofNat 16 (natOfBytes data / 65536) ∧
          (∀ e, e ≠ d → e ≠ d + 1 → u.regs.route.getD e 0 = s.regs.route.getD e 0) ∧ u.spanReqs = s.spanReqs ∧ u.mem = s.mem) ∧
        (∀ o ∈ [0x38, 0x3C], ∃ u : State, exec (.registerWrite (0x10000 + 256 * q + o) data) s = .next u ∧
          u.readReg (0x10000 + 256 * q + o) = (if q < 4 then BitVec.ofNat 32 (natOfBytes data) else 0) ∧ u.mem = s.mem ∧ u.regs = s.regs) ∧
        (∀ w ∈ [0x14, 0x24, 0x5C, 0x7C, 0x80, 0x84, 0x90], ∃ u : State, exec (.registerWrite w data) s = .next u ∧
          u.readReg w = s.readReg w) ∧
        ((BitVec.ofNat 32 (natOfBytes data)).getLsbD 31 = true → decodeWrite 0x90 data = .deviceReset) ∧
        (s.cur.index = 0 → ∃ u : State, exec .deviceReset s = .next u ∧ u.toll.boot = .imageCheck ∧ u.toll.cause = 3 ∧
          .event .deviceReset { index := 2 } ∈ u.agenda) ∧
        (∀ o ∈ [0x1C, 0x20, 0x24, 0x28, 0x2C], ∃ u : State,
          exec (.registerWrite (0x10000 + 256 * q + o) data) s = .next u ∧
          u.readReg (0x10000 + 256 * q + o) = s.readReg (0x10000 + 256 * q + o))) ∧
      (∀ (c n : Nat) (w : Word), 64 ≤ ((s.region c).ingress.getD n []).length → 
        let bytes := bytesOfNat 4 v.toNat ++ bytesOfNat 4 w.toNat ++ bytesOfNat 8 0
        exec (.ingressRecord c n v w) s
          = .next { s with agenda := .write (0x20000 + 16 * (8 * c + n)) bytes :: s.agenda }) ∧
      (∀ (c n : Nat) (w : Word), ((s.region c).ingress.getD n []).length < 64 → ∃ u : State, exec (.ingressRecord c n v w) s = .next u ∧
        (u.region c).ingress.getD n [] = (s.region c).ingress.getD n [] ++ [{ cluster := c, node := n, value := v, wtag := w }] ∧
        (u.region c).asleep = false ∧ .fire c (0x1910 + n) 0 ∈ u.agenda ∧ u.mem = s.mem))

/-- A LAUNCH whose extension block is still to be read, and whose lines no hand-over holds back, reads it and takes its
turn again. One whose extension block could not be read completes with FORMAT and its address; one whose rectangle or
handle is bad completes with RECT or HANDLE; one whose object lacks a feature while FEATHOST is 1 stops its queue with
an EVTYPE 5 event. One that matches the speculation of its queue claims it, once no counter line that it publishes has
slabs out. Any other, with its image resident and swept on the clusters of its rectangle, begins: a launch with the
fields of the packet runs, and a context of the image with a CTX that is free in every cluster of the rectangle stands
there with its seeds due. The model's own choices: an object with an amendment image has no launch (log 42), what a
claim waits for (log 52), and that RECT comes before HANDLE (log 129). (R391, R392, R401, R405, R406, R411, R418, R45,
R53) -/
def Obligations.LaunchPacket : Prop :=
  ∀ (s : State) (l : LaunchPkt) (c : Current), (s.queue s.cur.queue).current = some c →
    let q := s.cur.queue
    let rect := Rect.ofHalf l.rect
    let at_ := l.extptr.toNat
    (l.ext = true → c.args = [] → c.bad = none → s.linesHere (s.queueLines q at_ 96 true) = true →
      ∃ (u : State) (d : Current), exec (.launch l) s = .next u ∧ .event .dispatchSelect {} ∈ u.agenda ∧
        (u.queue q).current = some { d with begun := false } ∧
        (at_ % 128 ≠ 0 → d = { c with bad := some (at_, 0) }) ∧
        (at_ % 128 = 0 → ∀ f w, State.queueRead 2 s q at_ 96 = (.error f, w) → d = { c with bad := some (f.va, f.kind) }) ∧
        (at_ % 128 = 0 → ∀ b w, State.queueRead 2 s q at_ 96 = (.ok b, w) → d = { c with
          args := [l.arg0, l.arg1, l.arg2, l.arg3, l.arg4, l.arg5, l.arg6] ++ (List.range 9).map (fun i =>
            BitVec.ofNat 32 (natOfBytes ((b.drop (4 * i)).take 4)))
          binds := l.bind0 :: (List.range 7).map (fun i => BitVec.ofNat 64 (natOfBytes ((b.drop (0x28 + 8 * i)).take 8))) })) ∧
    (∀ f, c.bad = some f → exec (.launch l) s
      = .next (s.completePacket q .format { evtype := 2, va := f.1, kind := f.2 } false)) ∧
    (c.bad = none → (l.ext = true → c.args ≠ []) →
      let k : Current := if c.args = [] then { c with
        args := [l.arg0, l.arg1, l.arg2, l.arg3, l.arg4, l.arg5, l.arg6] ++ List.replicate 9 0
        binds := l.bind0 :: List.replicate 7 0 } else c
      (rect.legal = false → exec (.launch l) s = .next (s.completePacket q .rect { evtype := 2 } false)) ∧
      (rect.legal = true →
        (s.launchable l.handle = none → exec (.launch l) s = .next (s.completePacket q .handle { evtype := 2 } false)) ∧
        (∀ o, s.launchable l.handle = some o → o.routines ≠ [] → (s.queue q).qctl.getLsbD 2 = true → exec (.launch l) s
          = .next ((s.beginPacket q).post q { evtype := 5, queue := q, pseq := k.pseq.toNat })) ∧
        (∀ o n i, s.launchable l.handle = some o → o.routines = [] → o.firstStep = some n → o.images[n]? = some i →
          (s.ferryOf q).spec = none → (∀ c ∈ s.contexts, c.spec = false) → s.ctxRoom rect.clusters = true →
          (∀ c ∈ rect.clusters, s.residentIn c i.tag = true ∧ (s.region c).swept = true ∧ s.frozen c = false) →
          s.object? o.handle = some o →
          ∃ (w : State) (m : Launch) (x : Ctx), exec (.launch l) s = .next w ∧
            w.launches = s.launches ++ [m] ∧ m.queue = q ∧ m.pseq = k.pseq ∧ m.handle = l.handle ∧ m.object = o.handle ∧
            m.rect = rect ∧ m.args = k.args ∧ m.binds = k.binds ∧ m.prio = l.prio.toNat ∧ m.notify = l.notify ∧
            m.mayspec = l.spec ∧ m.spec = false ∧ m.killed = false ∧ m.root = (s.queue q).root ∧
            w.contexts = s.contexts ++ [x] ∧ x.ctx ∈ s.freeCtxs rect.clusters ∧ x.rect = rect ∧ x.cfg = i.tag ∧
            x.launch = m.id ∧ x.trapped = false ∧ x.killed = false ∧ x.saved = false ∧ x.spec = false ∧ x.seeded = false ∧
            .event .seedInjection { id := x.id } ∈ w.agenda) ∧
        (∀ o n p, s.launchable l.handle = some o → o.routines = [] → o.firstStep = some n → s.specLaunch q = some p →
          p.2.handle = l.handle → p.2.rect = rect → p.2.binds = k.binds → p.2.classes = l.classes → p.2.args = k.args →
          l.spec = true → s.claimWaits q = none → ∃ w : State, exec (.launch l) s = .next w ∧ (w.ferryOf q).spec = none ∧
            ∀ m ∈ w.launches, m.id = p.2.id → m.spec = false ∧ m.claimed = true ∧ m.pseq = k.pseq)))

/-- WAIT completes when CSEQ of the queue it names has reached SEQ and looks again until then. WAITF completes when its
flag is at or above its value, watches the line until then, and completes with FORMAT for an address it may not name.
SIGNAL completes when its store stands. Where no hand-over and no counter with slabs out holds back what they name,
WAITF, SIGNAL and LOAD go on at once; WAITF and SIGNAL ask for lines of a page in hand-over at its new home first. LOAD
completes with OK, or with LOAD and the status of the loader, which is SIGNATURE before FORMAT; an object that is loaded
already gains a reference and keeps its handle. LOAD with PLACE leaves a placing delivery of its object to every cluster
of a legal rectangle. UNLOAD takes one reference; the last frees the object, or retires it while a launch or a delivery
holds it. The model's own readings: which WAITF addresses are refused, and that SIGNAL may be unaligned (log 51), and
that a delivery holds its object (log 30). (R126, R127, R400, R404, R407, R411, R420, R439) -/
def Obligations.QueuePackets : Prop :=
  ∀ (s : State),
    let q := s.cur.queue
    let fin := fun (u : State) (st : PacketStatus) => u.completePacket q st { evtype := 2 } false
    (∀ (t : Byte) (n : Dword),
      (n.toNat ≤ (s.queue t.toNat).cseq.toNat → exec (.wait t n) s = .next (fin s .ok)) ∧
      ((s.queue t.toNat).cseq.toNat < n.toNat → ∃ u : State, exec (.wait t n) s = .next u ∧ .packet q ∈ u.agenda ∧
        u.queues = s.queues ∧ u.mem = s.mem)) ∧
    (∀ a v : Dword,
      (a.toNat % 8 ≠ 0 → exec (.waitf a v) s
        = .next (s.completePacket q .format { evtype := 2, va := a.toNat, kind := 0 } false)) ∧
      (let far := s.queueLines q a.toNat 8 true
       (a.toNat % 8 = 0 → s.linesHere far = false → exec (.waitf a v) s = .next ((s.askFar far).again q)) ∧
       (a.toNat % 8 = 0 → s.linesHere far = true →
        (∀ t u, s.queueTranslate q a.toNat false = (.ok t, u) →
          (u.within t.pa = false ∨ leafMt t.leaf ≠ 0 → exec (.waitf a v) s
            = .next ((u.useFar far).completePacket q .format { evtype := 2, va := a.toNat, kind := 0 } false)) ∧
          (u.within t.pa = true → leafMt t.leaf = 0 → v.toNat ≤ u.readPhysNat t.pa 8 → exec (.waitf a v) s = .next (fin (u.useFar far) .ok)) ∧
          (u.within t.pa = true → leafMt t.leaf = 0 → u.readPhysNat t.pa 8 < v.toNat → exec (.waitf a v) s
            = .next (((u.useFar far).updQueue q (fun k => { k with
                waiting := some (t.pa / 128), current := k.current.map (fun (c : Current) => { c with begun := false }) })).dueOnce
              (.event .dispatchSelect {})))) ∧
        (∀ f u, s.queueTranslate q a.toNat false = (.error f, u) → exec (.waitf a v) s
          = .next ((u.useFar far).completePacket q .format { evtype := 2, va := f.va, kind := f.kind } false)))) ∧
      (let far := s.queueLines q a.toNat 8 false
       (s.linesHere far = false → exec (.signal a v) s = .next ((s.askFar far).again q)) ∧
       (s.linesHere far = true →
        (∀ t u w, s.queueTranslate q a.toNat true = (.ok t, u) → (∀ d, u.physPlace t.pa ≠ .remote d) →
          u.inLentPage t.pa = false → u.slabsOut (t.pa / 128) = false →
          State.queueWrite 2 u q a.toNat (bytesOfNat 8 v.toNat) = (.ok (), w) → exec (.signal a v) s = .next (fin (w.useFar far) .ok)) ∧
        (∀ f u, s.queueTranslate q a.toNat true = (.error f, u) → exec (.signal a v) s
          = .next ((u.useFar far).completePacket q .format { evtype := 2, va := f.va, kind := f.kind } false))))) ∧
    (∀ (a n r : Dword) (b : List Byte),
      (∀ f u, s.loadWaits q a n r = none → s.loadPacket q a n r = (.error f, u) → exec (.load a n r) s
        = .next (u.completePacket q .format { evtype := 2, va := f.va, kind := f.kind } false)) ∧
      (∀ h u, s.loadWaits q a n r = none → s.loadPacket q a n r = (.ok (.ok, h), u) → exec (.load a n r) s = .next (fin u .ok)) ∧
      (∀ st h u, s.loadWaits q a n r = none → st ≠ .ok → s.loadPacket q a n r = (.ok (st, h), u) → exec (.load a n r) s
        = .next (u.completePacket q .load { evtype := 2, vala := BitVec.ofNat 32 st.code } false)) ∧
      (s.signed b = false → s.loadObject a b = (.signature, 0, s)) ∧
      (s.signed b = true → s.formatOk b = false → s.loadObject a b = (.format, 0, s)) ∧
      (∀ k o, s.signed b = true → s.formatOk b = true → signatureOf b = some k → s.objects = [o] → o.obj = a →
        o.key = objBytes b k.offset 32 → o.sig = objBytes b (k.offset + 32) 64 → o.retiring = false →
        s.loadObject a b = (.ok, o.handle, { s with objects := [{ o with refs := o.refs + 1 }] })) ∧
      (∀ (h : Half), (∀ j ∈ s.jobs, j.queue ≠ some q) →
        ((Rect.ofHalf h).legal = false → exec (.loadPlace h a n r) s = .next (fin s .rect)) ∧
        (∀ x u, (Rect.ofHalf h).legal = true → s.loadWaits q a n r = none → s.loadPacket q a n r = (.ok (.ok, x), u) → ∃ w : State,
          exec (.loadPlace h a n r) s = .next w ∧ .event .dispatchSelect {} ∈ w.agenda ∧ w.jobs = u.jobs ++
            [{ id := u.nextId, queue := some q, handle := x, clusters := (Rect.ofHalf h).clusters, image := 0, tag := 0,
               begun := false, launch := none, waiting := [], failed := none }]))) ∧
    (∀ (h : Word),
      (s.object? h = none → exec (.unload h) s = .next (fin s .handle)) ∧
      (∀ o, s.object? h = some o → (h = 0 ∨ o.retiring = true) → exec (.unload h) s = .next (fin s .handle)) ∧
      (∀ o, s.object? h = some o → h ≠ 0 → o.retiring = false →
        (2 ≤ o.refs → ∃ u : State, exec (.unload h) s = .next u ∧ u.object? h = some { o with refs := o.refs - 1 } ∧
          u.mem = s.mem) ∧
        (o.refs ≤ 1 → (∀ l ∈ s.launches, l.object ≠ h) → (∀ j ∈ s.jobs, j.handle ≠ h) → ∃ u : State, exec (.unload h) s = .next u ∧ u.object? h = none ∧
          u.mem = s.mem) ∧
        (o.refs ≤ 1 → ((∃ l ∈ s.launches, l.object = h) ∨ ∃ j ∈ s.jobs, j.handle = h) → (∀ l ∈ s.launches, l.spec = false) → ∃ u : State,
          exec (.unload h) s = .next u ∧ u.object? h = some { o with refs := o.refs - 1, retiring := true })))

/-- FREEZE and DRAIN of an illegal rectangle complete with RECT; of a legal one, FREEZE leaves a freeze of the closure
with its clusters halted and its save due, DRAIN one with its clusters draining and its time due. Where no hand-over
holds back their LIST or their areas, RESUME waits until its clusters can take the contexts, completes with the CODE of
a failed check in its EVTYPE 3 event, and where all is well and every configuration is resident completes with CODE 0,
its areas given up and its contexts live again. KILL discards every context of the running launch of its queue and
completes once none is left, nor one of a speculation that it discarded. RETRY lets the requests held at a station go
on, and the MO of a control port begin its token again. RELEASE leaves no live context of the queue TRAPPED. TLBINV
leaves no cached translation of its range. CONTINUE of a queue that has not stopped does nothing; of one that has, it
launches the object named, the packet stopped no more, or the launch completes with FEATURE. The model's own readings:
FEATURE where CONTINUE names a bad handle (log 43), a LIST entry of 0 and the order of RESUME's checks (log 44), the
course of a faulted MO (log 82), and CONTINUE of a queue that has not stopped (log 130). (R414, R415, R418, R419, R421,
R423, R424, R428) -/
def Obligations.PrivilegedPackets : Prop :=
  ∀ (s : State),
    let q := s.cur.queue
    let fin := fun (u : State) (st : PacketStatus) => u.completePacket q st { evtype := 2 } false
    let fresh : Prop := ∃ k, (s.queue q).current = some k ∧ k.stopped = false
    (∀ (h : Half) (a : Dword) (n : Word), fresh → s.linesHere (listLines a) = true →
      let cs := s.closureOf (Rect.ofHalf h).clusters
      ((Rect.ofHalf h).legal = false → exec (.freeze h a) s = .next (fin s .rect) ∧
        exec (.drainPacket h a n) s = .next (fin s .rect)) ∧
      ((Rect.ofHalf h).legal = true → s.inFreeze cs = false →
        let f : Freeze := { id := s.nextId, queue := some q, clusters := cs, areas := s.listAreas a.toNat cs, ring := false,
                            drain := false, start := s.refCount, dtime := 0, saved := false, stuck := false }
        (∃ u : State, exec (.freeze h a) s = .next u ∧ u.freezes = s.freezes ++ [f] ∧
          (∀ c ∈ cs, (u.region c).halted = true) ∧ .event .freezeSave { id := f.id } ∈ u.agenda) ∧
        (∃ u : State, exec (.drainPacket h a n) s = .next u ∧
          u.freezes = s.freezes ++ [{ f with drain := true, dtime := n.toNat }] ∧
          (∀ c ∈ cs, (u.region c).draining = true) ∧ .event .drainSweepComplete { id := f.id } ∈ u.agenda ∧
          .event .drainTimeout { id := f.id } ∈ u.agenda))) ∧
    (∀ (a : Dword),
      let areas := (s.listAreas a.toNat (List.range 64)).filter (fun e => e.2 != 0)
      let code := s.resumeCode areas
      let ends := fun (u w : State) (unpinned : Nat) => u = (((w.post q
        { evtype := 3, code := code, queue := q, vala := BitVec.ofNat 32 unpinned, valb := BitVec.ofNat 32 areas.length,
          pseq := ((s.queue q).current.map (fun k => k.pseq.toNat)).getD 0 }).useFar (listLines a)).completePacket q .ok { evtype := 2 }
        false).unstick (areas.map (fun e => e.2))
      s.linesHere (listLines a) = true → s.linesHere (s.areaLines areas) = true →
      (s.canResume areas = false → ∃ u : State, exec (.resume a) s = .next u ∧ .packet q ∈ u.agenda ∧ u.saves = s.saves ∧
        u.contexts = s.contexts ∧ u.queues = s.queues) ∧
      (s.canResume areas = true → code ≠ 0 → ∃ u : State, exec (.resume a) s = .next u ∧ ends u (s.useFar (s.areaLines areas)) 0 ∧
        u.saves = s.saves ∧ u.contexts = s.contexts ∧ (u.queue q).cseq = (s.queue q).cseq + 1) ∧
      (s.canResume areas = true → code = 0 →
        (∀ k ∈ s.namedCtxs areas, s.savedImage k = none ∨ s.evictedFrom k = []) → ∃ u : State, exec (.resume a) s = .next u ∧
          (∃ (w : State) (n : Nat), ends u w n) ∧ (∀ e ∈ areas, u.saves.get? e.2 = none) ∧ (u.queue q).cseq = (s.queue q).cseq + 1 ∧
          ∀ k ∈ s.namedCtxs areas, ∃ m ∈ u.contexts, m.id = k.id ∧ m.saved = false)) ∧
    (∀ (t : Byte), (s.ferryOf t.toNat).spec = none → fresh →
      (s.runningLaunch t.toNat = none → exec (.kill t) s = .next (fin (s.beginPacket q) .ok)) ∧
      (∀ l, s.runningLaunch t.toNat = some l → s.hasContext l.id = true → ∃ u : State, exec (.kill t) s = .next u ∧
        .packet q ∈ u.agenda ∧ ∀ x ∈ u.contexts, x.launch = l.id → x.killed = true)) ∧
    (∀ (t : Byte) k, (s.queue q).current = some k → k.stopped = true → (∀ l ∈ s.launches, l.queue = t.toNat → l.killed = false) →
      (∀ x ∈ s.contexts, x.id ∉ k.discarded) → exec (.kill t) s = .next (fin s .ok)) ∧
    (∀ (c : Byte) (st : Half), (st.toNat < 0x12C0 ∨ 0x12C4 ≤ st.toNat) →
      ((∀ r ∈ s.reqs, r.cluster = c.toNat → r.station = st.toNat → ∀ t, r.stage ≠ .held t) →
        exec (.retry c st) s = .next (fin s .ok)) ∧
      (∀ r t, s.reqs = [r] → r.cluster = c.toNat → r.station = st.toNat → r.stage = .held t →
        (∀ m, r.kind ≠ .streamRead m) → ∃ u : State, exec (.retry c st) s = .next u ∧ u.reqs = [{ r with stage := .issued }] ∧
          .event .pageWalk { id := r.id } ∈ u.agenda ∧ u.mem = s.mem)) ∧
    (∀ (c : Byte) (st : Half) (m : Nat) (run : MoRun), m < 4 → st.toNat = 0x12C0 + m → (s.mo c.toNat m).run = some run →
      run.restored = true → run.token.pair = none → (∀ o ∈ (s.region c.toNat).regOps, o.act = .mma m → o.begun = true) →
      ∃ u : State, exec (.retry c st) s = .next u ∧ (u.mo c.toNat m).run = some { run with faulted := none } ∧
        ∃ o ∈ (u.region c.toNat).regOps, o.act = .mma m ∧ o.begun = false ∧ o.writes = [run.z]) ∧
    (∀ (t : Byte), ∃ u : State, exec (.release t) s = .next u ∧
      ∀ x ∈ u.contexts, s.queueOf x = t.toNat → x.killed = false → x.spec = false → x.trapped = false) ∧
    (∀ va n root : Dword, ∃ u : State, exec (.tlbinv va n root) s = .next u ∧ u.mem = s.mem ∧ u.reqs = s.reqs ∧
      (∀ e ∈ u.regions, ∀ t ∈ e.2.tlb, (root = 0 ∨ t.root = root) →
        t.page * 2 ^ pageBits t.level < va.toNat + n.toNat → (t.page + 1) * 2 ^ pageBits t.level ≤ va.toNat) ∧
      (∀ c, ∀ t ∈ (s.region c).tlb, root ≠ 0 → t.root ≠ root → t ∈ (u.region c).tlb)) ∧
    (∀ (t : Byte) (h : Word),
      ((∀ k, (s.queue t.toNat).current = some k → k.stopped = false) → exec (.continuePkt t h) s = .next (fin s .ok)) ∧
      (∀ k l x, (s.queue t.toNat).current = some k → k.stopped = true → decodePacket t.toNat k.bytes = .ok (.launch l) →
        s.launchHead t.toNat l = .ok x →
        (s.launchable h = none → exec (.continuePkt t h) s
          = .next ((fin s .ok).completePacket t.toNat .feature { evtype := 2 } false)) ∧
        (∀ o, s.launchable h = some o → exec (.continuePkt t h) s
          = .next (((fin s .ok).continuePacket t.toNat).beginLaunch t.toNat x l o o.firstStep))) ∧
      (∀ k l f, (s.queue t.toNat).current = some k → k.stopped = true → decodePacket t.toNat k.bytes = .ok (.launch l) →
        s.launchHead t.toNat l = .error f → exec (.continuePkt t h) s
          = .next ((fin s .ok).completePacket t.toNat .format { evtype := 2, va := f.va, kind := f.kind } false)))

/-- LAUNCH_WINDOW_SEAL hands over the slot whose SEAL has its lap value and nothing before it. The head that
DISPATCH_SELECT begins is of the highest priority among those that are ready and the first in the round among equals,
and a queue's packet taken comes to its head and begins where it is ready. A flag that was written is looked at again: a
WAITF at a head is ready where its flag has reached its value, and waits with its line watched where it has not. Where
no hand-over holds back the areas or the ring: a save begins once nothing of its closure is on its way, and leaves every
context of the closure saved with an area for each cluster. A drain whose contexts have completed saves its areas and
ends; after DTIME it goes on as a freeze. A watchdog whose units have passed leaves its context TRAPPED and posts its
event. A closure that may be pre-empted is frozen into areas of the ring, and resumed as RESUME would, unless a head of
higher priority waits for it. The model's own readings: when such a closure is resumed (log 48), and which queue's
PEHOST decides (log 49). (R402, R404, R405, R409, R411, R422, R423, R424, R425, R426, R427, R439) -/
def Obligations.DispatcherEvents : Prop :=
  ∀ (s : State),
    let x := s.cur
    let q := x.queue
    let k := s.queue q
    let at_ := k.winbase.toNat + 64 * (k.slot % 256)
    (4 ≤ q ∨ k.qctl.getLsbD 31 = false → exec .launchWindowSeal s = .next s) ∧
    (q < 4 → k.qctl.getLsbD 31 = true → s.inLentPage at_ = false →
      (s.readPhysNat (at_ + 63) 1 ≠ lapSeal k.slot 256 → exec .launchWindowSeal s = .next s) ∧
      (s.readPhysNat (at_ + 63) 1 = lapSeal k.slot 256 → ∃ (u : State) (c : Current) (rest : List Current),
        exec .launchWindowSeal s = .next u ∧ (u.queue q).taken = k.taken ++ c :: rest ∧
        c.bytes = BitVec.ofNat 512 (s.readPhysNat at_ 64) ∧ c.pseq = k.pseq + 1 ∧ c.begun = false)) ∧
    (∀ t n p, s.chooseHead = some t → n < 64 → s.readyHead n = some p → ∃ m, s.readyHead t = some m ∧ p ≤ m ∧
      (p = m → (t + 63 - s.lastQueue) % 64 ≤ (n + 63 - s.lastQueue) % 64)) ∧
    (s.jobs = [] → s.launches = [] → (∀ n, (s.queue n).taken = []) → (∀ n c a v, s.waitingHead n ≠ some (c, .ok (.waitf a v))) →
      ∃ u : State, exec .dispatchSelect s = .next u ∧ u.mem = s.mem ∧ u.contexts = s.contexts ∧
        (s.chooseHead = none → u.queues = s.queues) ∧
        (∀ t, s.chooseHead = some t → .packet t ∈ u.agenda ∧ u.lastQueue = t ∧ u.queues = s.queues.set t { s.queue t with
          current := (s.queue t).current.map (fun c => { c with begun := true }) })) ∧
    (∀ t c rest, t < 64 → s.queues = [(t, s.queue t)] → (s.queue t).taken = c :: rest → (s.queue t).current = none →
      (s.queue t).qctl.getLsbD 31 = true → c.begun = false → (∀ l, decodePacket t c.bytes ≠ .ok (.launch l)) →
      (∀ a v, decodePacket t c.bytes ≠ .ok (.waitf a v)) →
      (∀ m n, decodePacket t c.bytes = .ok (.wait m n) → n.toNat ≤ (s.queue m.toNat).cseq.toNat) → s.jobs = [] →
      s.launches = [] → exec .dispatchSelect s
        = .next { s with queues := [(t, { s.queue t with current := some { c with begun := true }, taken := rest })],
                         lastQueue := t, agenda := .packet t :: s.agenda, picks := 0 :: s.picks }) ∧
    (exec .waitfFlagRecheck s
      = .next ((s.updQueue q (fun k => { k with waiting := none })).dueOnce (.event .dispatchSelect {}))) ∧
    (∀ c a v, s.waitingHead q = some (c, .ok (.waitf a v)) →
      (k.waiting.isSome = true → s.readyHead q = none) ∧ (k.waiting = none → s.readyHead q = some 0 ∧
        (a.toNat % 8 = 0 → s.linesHere (s.queueLines q a.toNat 8 true) = true → ∀ t u, s.queueTranslate q a.toNat false = (.ok t, u) →
          u.within t.pa = true → leafMt t.leaf = 0 →
          (v.toNat ≤ u.readPhysNat t.pa 8 → ((s.lookFlag q).queue q).waiting = none) ∧
          (u.readPhysNat t.pa 8 < v.toNat → ((s.lookFlag q).queue q).waiting = some (t.pa / 128))))) ∧
    (∀ f, s.freezes.find? (fun f => f.id == x.id) = some f →
      ((s.withdraw f.clusters).canSave f.clusters = false → ∃ u : State, exec .freezeSave s = .next u ∧
        .event .freezeSave x ∈ u.agenda ∧ u.contexts = s.contexts ∧ u.saves = s.saves) ∧
      ((s.withdraw f.clusters).canSave f.clusters = true →
        (s.withdraw f.clusters).linesHere ((s.withdraw f.clusters).areaLines f.areas) = true → ∃ u : State, exec .freezeSave s = .next u ∧
        (∀ e ∈ f.areas, (u.saves.get? e.2).isSome = true) ∧
        (∀ c ∈ u.contexts, f.clusters.any c.rect.contains = true → c.saved = true))) ∧
    (∀ f, s.freezes.find? (fun f => f.id == x.id && f.drain) = some f →
      ((∃ c ∈ f.clusters, s.ctxsOf c ≠ []) → exec .drainSweepComplete s = .next (s.dueEvent .drainSweepComplete x)) ∧
      (∀ t, (∀ c ∈ f.clusters, s.ctxsOf c = []) → f.queue = some t → s.linesHere (s.areaLines f.areas) = true → ∃ u : State, exec .drainSweepComplete s = .next u ∧
        (∀ e ∈ f.areas, (u.saves.get? e.2).isSome = true ∧ (u.region e.1).draining = false) ∧
        (∀ g ∈ u.freezes, g.id ≠ f.id) ∧ (u.queue t).cseq = (s.queue t).cseq + 1) ∧
      (s.refCount < f.start + f.dtime * 1024 → exec .drainTimeout s = .next (s.dueEvent .drainTimeout x)) ∧
      (f.start + f.dtime * 1024 ≤ s.refCount → ∃ u : State, exec .drainTimeout s = .next u ∧
        u.freezes = s.freezes.filter (fun g => g.id != f.id) ++ [{ f with drain := false }] ∧
        (∀ c ∈ f.clusters, (u.region c).halted = true) ∧ .event .freezeSave { id := f.id } ∈ u.agenda)) ∧
    (∀ c l, s.contexts.find? (fun c => c.id == x.id) = some c → s.launchOf c = some l → c.saved = false → c.killed = false →
      l.spec = false → l.barked = false → (∀ n ∈ c.rect.clusters, (s.region n).halted = false) →
      let ran := l.counted + (s.refCount - l.start)
      (ran < l.wdog.toNat * 1024 → ∃ u : State, exec .watchdog s = .next u ∧ u.contexts = s.contexts ∧
        .event .watchdog x ∈ u.agenda) ∧
      (l.wdog.toNat * 1024 ≤ ran → ∃ u : State, exec .watchdog s = .next u ∧ u.contexts = (s.setTrapped c.id).contexts ∧
        (let w := s.queue l.queue
         w.events = [] → (w.evtail - w.evhead).toNat < w.ringSize →
         s.inLentPage (w.evbase.toNat + 128 * (w.evtail.toNat % w.ringSize)) = false →
         s.slabsOut ((w.evbase.toNat + 128 * (w.evtail.toNat % w.ringSize)) / 128) = false →
         (u.queue l.queue).evtail = w.evtail + 1))) ∧
    (s.heldLaunch q = none → exec .preemptFreeze s = .next s) ∧
    (∀ l, s.heldLaunch q = some l →
      let cs := s.closureOf (Rect.ofHalf l.rect).clusters
      s.inFreeze cs = false → cs.any s.frozen = false → s.mayPreempt cs l.prio.toNat = true →
      cs.length ≤ (s.regs.svprod - s.regs.svcons).toNat → s.linesHere s.ringLines = true → ∃ (u : State) (f : Freeze), exec .preemptFreeze s = .next u ∧
        u.freezes = s.freezes ++ [f] ∧ f.clusters = cs ∧ f.ring = true ∧ f.queue = none ∧
        u.regs.svcons = s.regs.svcons + BitVec.ofNat 32 cs.length ∧ ∀ c ∈ cs, (u.region c).halted = true) ∧
    (∀ f, s.freezes.find? (fun f => f.id == x.id && f.saved) = some f →
      let areas := f.areas.filter (fun e => (s.saves.get? e.2).isSome)
      (f.stuck = true → exec .preemptResume s = .next s) ∧
      (f.stuck = false → s.closureWanted f = true → exec .preemptResume s = .next (s.dueEvent .preemptResume x)) ∧
      (f.stuck = false → s.closureWanted f = false → s.linesHere (s.areaLines areas) = true →
        (s.canResume areas = false → exec .preemptResume s = .next (s.dueEvent .preemptResume x)) ∧
        (s.canResume areas = true → s.resumeCode areas ≠ 0 → ∃ u : State, exec .preemptResume s = .next u ∧
          u.saves = s.saves ∧ u.contexts = s.contexts ∧ ∀ g ∈ u.freezes, g.id = f.id → g.stuck = true) ∧
        (s.canResume areas = true → s.resumeCode areas = 0 →
          (∀ k ∈ s.namedCtxs areas, s.savedImage k = none ∨ s.evictedFrom k = []) → ∃ u : State,
          exec .preemptResume s = .next u ∧ (∀ e ∈ areas, u.saves.get? e.2 = none) ∧
          ∀ k ∈ s.namedCtxs areas, ∃ m ∈ u.contexts, m.id = k.id ∧ m.saved = false)))

/-- Nothing starts for a queue without a last LAUNCH, whose last LAUNCH did not allow it, or where speculation has
stopped. Where every condition holds the predicted launch starts as a speculation: a launch and a context marked so, and
the queue has a speculation. A write of another agent to a line that a speculation has read leaves its queue without
one. A speculation whose counts have been zero for 100,000 reference counts is discarded, and no other starts for its
queue until the next LAUNCH. In host-hint mode what stops the queue stops the hint that stands in its slot, by the
model's reading (log 53). (R383, R384, R385, R386, R395, R397) -/
def Obligations.FerryEvents : Prop :=
  ∀ (s : State),
    let x := s.cur
    let q := x.queue
    ((s.ferryOf q).last = none → exec .ferryStart s = .next s) ∧
    (∀ l, (s.ferryOf q).last = some l → l.mayspec = false → exec .ferryStart s = .next s) ∧
    ((if (s.queue q).qctl.getLsbD 3 then (s.ferryOf q).hintStopped else (s.ferryOf q).stopped) = true →
      exec .ferryStart s = .next s) ∧
    (∀ l k p u o n i, (s.ferryOf q).last = some l → l.mayspec = true → (s.ferryOf q).spec = none →
      (s.ferry.filter (fun e => e.2.spec.isSome)).length < 8 → s.prediction q l = (some (k, p), u) → p.spec = true →
      u.launchTarget q p = .run o (some n) → o.images[n]? = some i →
      let cs := (Rect.ofHalf p.rect).clusters
      (∀ c ∈ cs, u.residentIn c i.tag = true ∧ (u.region c).swept = true ∧ u.frozen c = false) →
      cs.all u.idleForFerry = true → u.wantedBy cs = false → u.ctxRoom cs = true →
      ∃ (w : State) (m : Launch) (c : Ctx), exec .ferryStart s = .next w ∧ (w.ferryOf q).spec.isSome = true ∧
        w.launches = u.launches ++ [m] ∧ m.spec = true ∧ m.rect = Rect.ofHalf p.rect ∧ w.contexts = u.contexts ++ [c] ∧
        c.spec = true ∧ c.launch = m.id ∧ c.cfg = i.tag ∧ c.ctx ∈ u.freeCtxs cs) ∧
    (∃ u : State, exec .readSetConflict s = .next u ∧
      ∀ t p, t ≠ q → (s.ferryOf t).spec = some p → x.index ∈ p.reads → (u.ferryOf t).spec = none) ∧
    ((∀ e ∈ s.ferry, ∀ p, e.2.spec = some p → x.index ∉ p.reads) → exec .readSetConflict s = .next s) ∧
    (∀ p t, (s.ferryOf q).spec = some p → p.idle = some t → p.launch = x.id →
      (t + 100000 ≤ s.refCount → ∃ u : State, exec .speculationTimeout s = .next u ∧ (u.ferryOf q).spec = none ∧
        (u.ferryOf q).stopped = true ∧ (u.ferryOf q).hintStopped = true) ∧
      (s.refCount < t + 100000 → ∃ u : State, exec .speculationTimeout s = .next u ∧
        .event .speculationTimeout x ∈ u.agenda ∧ u.ferry = s.ferry))

/-- Power good starts the bring-up with every register at its reset value, no context and no memory but the host's; the
image check runs the flash image where it is valid and leaves the device in RECOVERY otherwise; training ends in READY.
A device reset starts at the image check, from READY or from the management interface alone. A power fault and a
junction above 115 degrees lose every state and record their causes. A sample above a limit takes the clock one step
down to no less than 1,000 MHz. In RECOVERY a GO starts the check of the staged image; a valid image is written over the
flash and a cold bring-up follows, an invalid one leaves its reason. A quiescent cluster that goes to sleep loses its
waves, store buffer and matching stores and keeps its registers. The model's own readings: which cluster may sleep (log
64), what a reset, a power fault or a trip drops and keeps and the answer 0xFF of an abort (log 67), and the average of
fewer than 100 samples (log 127). (R340, R444, R445, R446, R448, R449, R450) -/
def Obligations.Platform : Prop :=
  ∀ (s : State) (v : Word),
    let x := s.cur
    let t := s.toll
    let lost := fun (u : State) => u.regs = State.reset.regs ∧ u.contexts = [] ∧ u.launches = [] ∧ u.regions = [] ∧
      u.queues = [] ∧ u.reqs = [] ∧ u.objects = [] ∧ u.saves = [] ∧
      (∀ a, a / 2 ^ 48 % 16 ≠ 4 → u.mem.get a = 0) ∧ (∀ a, a / 2 ^ 48 % 16 = 4 → u.mem.get a = s.mem.get a)
    let kept := fun (u : State) => u.toll.keys = t.keys ∧ u.toll.keyseq = t.keyseq ∧ u.toll.fused = t.fused
    let check := fun (i : Instr) =>
      ∃ u : State, exec i s = .next u ∧
        if t.flashValid then u.toll.boot = .training ∧ u.toll.running = t.flash ∧
          u.toll.fused.toNat = max t.fused.toNat (min (t.flash.getD 8 0).toNat 15) ∧ .event i { index := 3 } ∈ u.agenda
        else u = { s with toll := { t with boot := .recovery } }
    let train := fun (i : Instr) =>
      (t.boot = .training → exec i s = .next { s with toll := { t with boot := .ready } }) ∧
      (t.boot ≠ .training → exec i s = .next s)
    (x.index = 0 →
      (∃ u : State, exec .powerOn s = .next u ∧ lost u ∧ kept u ∧ u.toll.boot = .rom ∧ u.toll.flash = t.flash ∧
        .event .powerOn { index := 1 } ∈ u.agenda) ∧
      (s.takesWrites = true ∨ (x.id = 1 ∧ t.off = false) → ∃ u : State, exec .deviceReset s = .next u ∧ lost u ∧ kept u ∧
        u.toll.boot = .imageCheck ∧ u.toll.cause = 3 ∧ u.toll.log = t.log ∧ .event .deviceReset { index := 2 } ∈ u.agenda ∧
        (∀ r ∈ s.reqs, r.cluster = 64 → r.station = 66 → (r.aux.toNat, [], 0xFF) ∈ u.outbox)) ∧
      (s.takesWrites = false → x.id ≠ 1 → exec .deviceReset s = .next s)) ∧
    (x.index = 1 → ∃ u : State, exec .powerOn s = .next u ∧ u.toll = { t with boot := .imageCheck } ∧
      .event .powerOn { index := 2 } ∈ u.agenda) ∧
    (x.index = 2 → check .powerOn ∧ check .deviceReset) ∧
    (x.index = 3 → train .powerOn ∧ train .deviceReset) ∧
    (∃ u : State, exec .powerFault s = .next u ∧ lost u ∧ kept u ∧ u.toll.off = true ∧ u.toll.cause = 2 ∧
      u.toll.flash = if s.flashing then [] else t.flash) ∧
    (let p := x.reading
     let ps := (p.power :: t.powers).take 100
     let sum := (ps.map (fun w => w.toNat)).sum
     (t.off = true → exec .powerSample s = .next s) ∧
     (t.off = false →
       ((∃ j ∈ p.junction, 115 * 8 < j.toInt) → ∃ u : State, exec .powerSample s = .next u ∧ lost u ∧ kept u ∧
         u.toll.off = true ∧ u.toll.cause = 1) ∧
       ((∀ j ∈ p.junction, j.toInt ≤ 115 * 8) → ∃ u : State, exec .powerSample s = .next u ∧ u.mem = s.mem ∧ u.regs = s.regs ∧
         u.toll.reading = some p ∧ u.toll.powers = ps ∧
         (2400000 * ps.length < sum ∨ (∃ j ∈ p.junction, 100 * 8 < j.toInt) → u.fclk = max 1000 (s.fclk - 125) ∧
           u.toll.quiet = 0) ∧
         (sum ≤ 2400000 * ps.length → (∀ j ∈ p.junction, j.toInt < 95 * 8) → p.power.toNat < 2280000 →
           (99 ≤ t.quiet → u.fclk = min 2000 (s.fclk + 125) ∧ u.toll.quiet = 0) ∧
           (t.quiet < 99 → u.fclk = s.fclk ∧ u.toll.quiet = t.quiet + 1)) ∧
         (sum ≤ 2400000 * ps.length → (∀ j ∈ p.junction, j.toInt ≤ 100 * 8) → 2280000 ≤ p.power.toNat ∨ (∃ j ∈ p.junction, 95 * 8 ≤ j.toInt) →
           u.fclk = s.fclk ∧ u.toll.quiet = 0)))) ∧
    (t.boot = .recovery → t.off = false →
      (t.rcvstat = 1 ∨ t.rcvstat = 2 → exec (.rcvctlGo v) s = .next s) ∧
      (t.rcvstat ≠ 1 → t.rcvstat ≠ 2 → ∃ u : State, exec (.rcvctlGo v) s = .next u ∧ u.toll = { t with rcvstat := 1 } ∧
        .event .stagedImageCheck { amount := some t.rcvlen.toNat, hasC := true } ∈ u.agenda)) ∧
    (t.boot ≠ .recovery → exec (.rcvctlGo v) s = .next s) ∧
    (t.off = true → exec .stagedImageCheck s = .next s) ∧
    (t.off = false →
      (∀ n, x.amount = some n → x.index = 0 →
        let image := t.staging.range 0 n
        let e := if 2 ^ 24 < n then 1 else imageReason t.fused n image
        ∃ u : State, exec .stagedImageCheck s = .next u ∧
          if e = 0 then u.toll.flash = t.flash ∧ u.toll.rcvstat = (if x.hasC then 2 else t.rcvstat) ∧
            .event .stagedImageCheck
              { index := 1, hasC := x.hasC, access := { write := true, addr := 0, data := image, size := image.length } } ∈ u.agenda
          else u = { s with toll := if x.hasC then { t with rcvstat := BitVec.ofNat 32 (e * 256 + 4) }
            else { t with stage := 4, reason := BitVec.ofNat 8 e } }) ∧
      (x.index = 1 → ∃ u : State, exec .stagedImageCheck s = .next u ∧ u.toll.flash = x.access.data ∧
        (t.boot = .recovery → .event .stagedImageCheck { index := 2 } ∈ u.agenda) ∧
        (x.hasC = false → u.toll.stage = 3 ∧ u.toll.reason = 0) ∧ (x.hasC = true → u.toll.rcvstat = 3)) ∧
      (x.index = 2 → t.boot = .recovery → ∃ u : State, exec .stagedImageCheck s = .next u ∧ lost u ∧ kept u ∧ u.toll.boot = .rom ∧
        u.toll.flash = t.flash ∧ .event .powerOn { index := 1 } ∈ u.agenda) ∧
      (x.index = 2 → t.boot ≠ .recovery → exec .stagedImageCheck s = .next s)) ∧
    (let c := x.cluster
     let r := s.region c
     r.delivery = none → s.frozen c = false → r.swept = true → (∀ e ∈ r.ingress, e.2 = []) →
      (s.ctxsOf c = [] → (s.specsIn c) = [] → ∃ u : State, exec .retentionSleep s = .next u ∧
        u.region c = { r with waves := [], buffer := [], store := [], asleep := true } ∧ u.mem = s.mem) ∧
      ((∃ k ∈ s.ctxsOf c, k.spec = false ∧ k.killed = false) → exec .retentionSleep s = .next s))

/-- While there is power, a command with a payload of another length answers 0x03 and a code without a command 0x06.
READPWR answers the last sample and the clock, or is busy before the first; READLOG the log entry of its index; STATUS
the bring-up word with the state and reason of the staged image; READKEYS a slot with KEYSEQ; READQUOTE a half of the
quote that QUOTE has signed. STAGE writes the staging area; COMMIT starts its check; a check in progress makes both
busy. SETKEY raises KEYSEQ by one where it is accepted, and answers 0x05 for another KEYSEQ. A device reset is due once
the answer to RESET has been read. Of the boundary-scan codes IDCODE shifts out the identity, SAMPLE/PRELOAD and EXTEST
select the boundary register while reset is held, and every other code, and those two otherwise, selects BYPASS. The
model's own readings: the order of SETKEY's checks (log 65), the end of the alert by READLOG of index 0 (log 66), the
board's bus as an activity and the read that lets RESET begin (log 118), and the average of fewer than 100 samples (log
127). (R451, R452, R453, R454, R455, R456) -/
def Obligations.Management : Prop :=
  ∀ (s : State) (p : List Byte), s.toll.off = false →
    let t := s.toll
    let answers := fun (i : Instr) (code : Byte) (b : List Byte) => exec i s = .next { s with toll := { t with answer := b, answerTo := code } }
    let slot := (p.getD 0 0).toNat
    (p.length ≠ 0 → answers (.readpwr p) 1 [3] ∧ answers (.status p) 8 [3] ∧ answers (.mgmtReset p) 9 [3]) ∧
    (p.length ≠ 1 → answers (.readlog p) 2 [3] ∧ answers (.readquote p) 7 [3] ∧ answers (.readkeys p) 0xA [3]) ∧
    (p.length ≠ 4 → answers (.commit p) 4 [3]) ∧ (p.length ≠ 103 → answers (.setkey p) 5 [3]) ∧ (p.length ≠ 32 → answers (.quote p) 6 [3]) ∧
    (p.length < 5 ∨ 244 < p.length → answers (.stage p) 3 [3]) ∧
    (∀ c, answers (.unknownMgmtCode c) c [6]) ∧
    (t.reading = none → answers (.readpwr []) 1 [1]) ∧
    (∀ r, t.reading = some r → answers (.readpwr []) 1 ((0 : Byte) :: (bytesOfNat 4 r.power.toNat ++
      bytesOfNat 4 ((t.powers.map (fun w => w.toNat)).sum / t.powers.length) ++
      bytesOfNat 2 (r.junction.getD 0 0).toNat ++ bytesOfNat 2 (r.junction.getD 1 0).toNat ++
      bytesOfNat 2 (r.junction.getD 2 0).toNat ++ bytesOfNat 2 (r.junction.getD 3 0).toNat ++ bytesOfNat 2 s.fclk))) ∧
    answers (.status []) 8 ((0 : Byte) :: (bytesOfNat 4 s.bootstat.toNat ++ [t.stage, t.reason])) ∧
    exec (.mgmtReset []) s = .next { s with toll := { t with answer := [0], answerTo := 9, resetDue := true } } ∧
    (t.resetDue = true → t.answerTo = 9 → .event .deviceReset { id := 1 } ∈ (s.boardAct (.smbusRead t.smbusAddr 9)).agenda) ∧
    (t.resetDue = false → ∀ addr code, s.boardAct (.smbusRead addr code) = s) ∧
    (p.length = 1 →
      (∀ e, t.log[slot]? = some e → ∃ u : State, exec (.readlog p) s = .next u ∧ u.toll.log = t.log ∧
        u.toll.answer = [(0 : Byte)] ++ bytesOfNat 8 e.time.toNat ++ [e.die, e.unit, e.kind] ++ List.replicate 5 0 ∧
        u.toll.unread = (t.unread && decide (slot ≠ 0))) ∧
      (t.log[slot]? = none → ∃ u : State, exec (.readlog p) s = .next u ∧ u.toll.answer = [2] ∧ u.toll.answerTo = 2) ∧
      (slot ≤ 7 → answers (.readkeys p) 0xA ((0 : Byte) :: ((t.keys.get? slot).getD (List.replicate 32 0) ++
        bytesOfNat 4 t.keyseq.toNat))) ∧
      (7 < slot → answers (.readkeys p) 0xA [2]) ∧
      (slot ≤ 1 → t.quote ≠ [] → answers (.readquote p) 7 ((0 : Byte) :: (t.quote.drop (128 * slot)).take 128)) ∧
      (1 < slot ∨ t.quote = [] → answers (.readquote p) 7 [2])) ∧
    (5 ≤ p.length → p.length ≤ 244 →
      let off := natOfBytes (p.take 4)
      (t.checking = true → answers (.stage p) 3 [1]) ∧
      (t.checking = false → 2 ^ 24 < off + (p.length - 4) → answers (.stage p) 3 [2]) ∧
      (t.checking = false → off + (p.length - 4) ≤ 2 ^ 24 → exec (.stage p) s
        = .next { s with toll := { t with staging := t.staging.putRange off (p.drop 4), stage := 1, answer := [0], answerTo := 3 } })) ∧
    (p.length = 4 →
      (t.checking = true → answers (.commit p) 4 [1]) ∧
      (t.checking = false → ∃ u : State, exec (.commit p) s = .next u ∧
        u.toll = { t with stage := 2, committed := natOfBytes p, answer := [0], answerTo := 4 } ∧
        .event .stagedImageCheck { amount := some (natOfBytes p) } ∈ u.agenda)) ∧
    (p.length = 32 → ∃ (u : State) (body : List Byte), exec (.quote p) s = .next u ∧ u.toll.answer = [0] ∧
      u.toll.quote = body ++ edSign (bytesOfNat 32 Config.attestSeed.toNat) body ∧
      body.take 8 = [0x44#8, 0x58#8, 0x51#8, 0x54#8] ++ bytesOfNat 4 t.fused.toNat ∧ (body.drop 152).take 32 = p) ∧
    (p.length = 103 →
      let op := (p.getD 1 0).toNat
      let seq := natOfBytes ((p.drop 0x22).take 4)
      let new := if op = 1 then t.keys.set slot ((p.drop 2).take 32) else t.keys.erase slot
      let taken := exec (.setkey p) s = .next { s with toll := { t with keys := new, keyseq := t.keyseq + 1, answer := [0], answerTo := 5 } }
      (7 < slot ∨ 1 < op → answers (.setkey p) 5 [2]) ∧
      (slot ≤ 7 → op ≤ 1 →
        (seq ≠ t.keyseq.toNat + 1 → answers (.setkey p) 5 [5]) ∧
        (seq = t.keyseq.toNat + 1 →
          (t.keys = [] → p.getD 0x26 0 = 0xFF#8 → taken) ∧
          (t.keys ≠ [] → t.keySigned p = true → taken) ∧
          (t.keys ≠ [] → t.keySigned p = false → answers (.setkey p) 5 [4])))) ∧
    (let shifts := fun (i : Instr) (ir : Byte) (d : Word) (b : Bool) =>
       ∃ u : State, exec i s = .next u ∧ u = { s with scan := { s.scan with ir := ir, data := d } } ∧ u.scan.boundary = b
     (∀ ir, ir ≠ 2 → ir ≠ 3 → shifts (.bypass ir) ir 0 false) ∧ shifts .idcode 0x01 0x1D880A4F#32 false ∧
     shifts .samplePreload 0x02 0 s.scan.reset ∧ shifts .extest 0x03 0 s.scan.reset ∧
     ∀ held, s.boardAct (.resetPin held) = { s with scan := { s.scan with reset := held } })

/-- For every station instruction, a firing whose port P value has bit 0 clear answers the next state in which its
tokens are consumed and nothing is sent. An instruction that is ordered by waves takes its place in the order of memory
instead, as an operation without a token. (R89, R157, R229) -/
def Obligations.SuppressedFirings : Prop :=
  ∀ (i : Instr) (op : Nat) (r : Rec) (s : State), i.record? = some (op, r) → op ≠ 0xB7 → s.cur.go = false →
    (¬ (0x70 ≤ op ∧ op ≤ 0x76) → ¬ (0x90 ≤ op ∧ op ≤ 0xA5 ∧ s.isOrdered s.cur.cluster op r = true) →
      exec i s = .next (s.consume op r)) ∧
    ((0x70 ≤ op ∧ op ≤ 0x76) ∨ (0x90 ≤ op ∧ op ≤ 0xA5 ∧ s.isOrdered s.cur.cluster op r = true) →
      ∃ q : MemReq, exec i s = .next ((s.consume op r).startOrdered q) ∧ q.kind = .mnop ∧ q.silent = true ∧
        q.station = s.cur.station ∧ q.tag = s.cur.tag ∧ q.own = r.own)

/-- A firing of graph control but ILLEGAL, EXIT and RET, of the integer, floating, vector and conversion families, of
SYSRD, TIME, PERF and FEAT leaves every byte of memory, every register, every record, every context and every other
cluster as they were: only tokens, requests, waves and counts of its own cluster, what is due, and under random rounding
the register of its vector element change. EXIT, which may close a wave and let operations that waited issue, leaves
memory, contexts, queues, records, tiles, accumulators, base slots and exit values as they were. (R31, R36, R61, R155)
-/
def Obligations.FiringFrame : Prop :=
  (∀ (i : Instr) (op : Nat) (r : Rec) (s t : State), i.record? = some (op, r) → movesTokens op = true →
    exec i s = .next t → TokensMove s.cur.cluster s t ∧ t.mem = s.mem ∧ ∀ a, t.mem.get a = s.mem.get a) ∧
  (∀ (r : Rec) (s t : State), exec (.exit r) s = .next t →
    t.mem = s.mem ∧ t.contexts = s.contexts ∧ t.queues = s.queues ∧ t.regs = s.regs ∧
    ∀ d, let k := t.region d
      let l := s.region d
      k.records = l.records ∧ k.tiles = l.tiles ∧ k.accs = l.accs ∧ k.bases = l.bases ∧ k.exitv = l.exitv ∧ k.vault = l.vault ∧
      k.vaultBytes = l.vaultBytes ∧ k.lfsr = l.lfsr)

/-- A trap in a live context makes it TRAPPED, so that nothing of it fires in the cluster of the trap, and posts one
event to the queue of its launch: with room in the ring, whose page is in no hand-over, the entry stands at its place
with every field at its offset and its SEAL last. A discarded context takes no trap, and a trap in a speculation
discards the speculation and posts nothing. The return from the exception leaves the context no longer TRAPPED and,
where BRK holds no token, memory as it was. (R208, R389, R410, R412, R414) -/
def Obligations.TrapEntryAndRelease : Prop :=
  ∀ (s : State) (t : Trap) (c st : Nat) (g a b : Word) (va agen kind : Nat) (list : List Nat) (k : Ctx) (l : Launch),
    s.ctxAt c (tagCtx g) = some k → s.launchOf k = some l →
    let u := s.takeTrapAt t c st g a b va agen kind list
    (k.killed = true → u = s) ∧
    (k.killed = false → k.spec = true → (∀ q, u.queue q = s.queue q) ∧ (u.ferryOf l.queue).spec = none) ∧
    (k.killed = false → k.spec = false →
      u.contexts = s.contexts.map (fun x => if x.id = k.id then { x with trapped := true } else x) ∧
      u.runs c g = false ∧ u.launches = s.launches ∧ u.regs = s.regs ∧ (∃ more, u.reqs = s.reqs ++ more ∧ ∀ r ∈ more, r.cluster = 64) ∧
      (let q := s.queue l.queue
       q.events = [] → (q.evtail - q.evhead).toNat < q.ringSize →
        s.inLentPage (q.evbase.toNat + 128 * (q.evtail.toNat % q.ringSize)) = false →
        s.slabsOut ((q.evbase.toNat + 128 * (q.evtail.toNat % q.ringSize)) / 128) = false →
        u.queue l.queue = { q with evtail := q.evtail + 1 } ∧ u.reqs = s.reqs ∧
        ∃ e : List Byte, e.length = 128 ∧
          u.mem = ((s.setTrapped k.id).writePhys (q.evbase.toNat + 128 * (q.evtail.toNat % q.ringSize)) e).mem ∧
          e.take 5 = [1, BitVec.ofNat 8 t.code, BitVec.ofNat 8 l.queue, k.ctx, BitVec.ofNat 8 c] ∧
          (e.drop 6).take 2 = bytesOfNat 2 st ∧ (e.drop 8).take 4 = bytesOfNat 4 g.toNat ∧
          (e.drop 16).take 4 = bytesOfNat 4 a.toNat ∧ (e.drop 20).take 4 = bytesOfNat 4 b.toNat ∧
          (e.drop 24).take 8 = bytesOfNat 8 va ∧ (e.drop 32).take 8 = bytesOfNat 8 agen ∧ e[40]? = some (BitVec.ofNat 8 kind) ∧
          (e.drop 48).take 8 = bytesOfNat 8 l.pseq.toNat ∧ (e.drop 56).take 8 = bytesOfNat 8 s.refCount ∧
          e[127]? = some (BitVec.ofNat 8 (q.evtail.toNat / q.ringSize % 255 + 1)))) ∧
    (k.saved = false → (∀ d, (s.region d).brkHeld = []) →
      (s.releaseCtx k).contexts = s.contexts.map (fun x => if x.id = k.id then { x with trapped := false } else x) ∧
      (s.releaseCtx k).mem = s.mem)

/-- For every well-formed instruction that has an encoding, whether a station record, an MO control token, a write or
stream command, a packet, a register write, a management command or a boundary-scan code, decoding the encoded words
gives that instruction with every operand. (R64, R68, R76, R100, R398, R400, R401, R454, R456) -/
def Obligations.EncodeDecode : Prop :=
  ∀ (i : Instr) (c : Code), i.wf = true → encode i = some c → decode c = .ok i

/-- The records of an FFMA on bf16 pairs and of a VFMA, an MMA control token, a stream BEGIN, a write command, a WAITF
packet and an IDCODE code decode to these instructions; an empty record, an unassigned opcode, an opcode in a class that
may not hold it, a reserved FMT, a reserved MOPC, an unassigned packet type and a command packet on q4 are refused by
name. (R64, R76, R80, R100, R103, R104, R400, R456) -/
def Obligations.WordsDecode : Prop :=
  (∃ r : Rec, decodeRecord .pe { f0 := 0x5323#16, f1 := 0x808E#16, f4 := 0x0800#16, f5 := 0x6C00#16 } = .ok (.ffma r) ∧
      r.fmt = 2 ∧ r.rnd = 1 ∧ r.flags.getLsbD 0 = true ∧ r.t0 = { valid := true, port := .a, addr := 0x8E } ∧
      r.b.low = 0x800 ∧ r.c.act = .sticky ∧ r.p.act = .immediate) ∧
    (∃ r : Rec, decodeRecord .ve { f0 := 0xC321#16, f1 := 0xB130#16, f4 := 0xC000#16, f5 := 0x0C00#16, f6 := 0x3FC0#16 }
      = .ok (.vfma r)) ∧
    (∃ t : Ctl, decodeControl 0x0420C080#32 = .ok (.mma t) ∧ t.zidx = 2 ∧ t.atile = 3 ∧ t.btile = 0 ∧ t.acc = true) ∧
    decodeCommand 0xFFF80007#32 = .beginStream 7 ∧
    decodeCommand 0x00035A5A#32 = .configWrite 0 3 0x5A5A#16 ∧
    decodePacket 9 ((0 : BitVec 320) ++ (5 : BitVec 64) ++ (0x1000 : BitVec 64) ++ (0 : BitVec 56) ++ (3 : BitVec 8))
      = .ok (.waitf 0x1000 5) ∧
    decodeScan 0x01 = .idcode ∧
    decodeRecord .pe {} = .error .empty ∧
    decodeRecord .pe { f0 := 0x3B00#16 } = .error .opcode ∧
    decodeRecord .ve { f0 := 0x1000#16 } = .error .klass ∧
    decodeRecord .pe { f0 := 0x10C0#16, f5 := 0xCC00#16 } = .error (.field 0) ∧
    decodeControl 0x0C000000#32 = .error .mopc ∧
    decodePacket 0 0x07 = .error .format ∧
    decodePacket 4 0x10 = .error .priv

/-- Where the activity chosen is an event (an expansion step alone in its sequencer), a register write, a management
command, a boundary-scan code, the packet in hand of a queue, the next word of a stream, the head of an MO queue or a
firing that is ready alone in its element, the step is the meaning of the instruction its words decode to, with what it
acts on in hand; what the board does at the management bus and the reset pin is done in a step of its own; a register
write stays due while a write of the host to memory is on its way to another device. Which activity is chosen is free
(log 1). (R31, R69, R303, R404, R432, R454, R456) -/
def Obligations.StepRunsInstruction : Prop :=
  ∀ (s u : State) (a : Activity), s.tick.choose = some (a, u) →
    (∀ i x, a = .event i x → i ≠ .mseqStep → step s = exec i { u with cur := x }) ∧
    (∀ x, a = .event .mseqStep x → (u.stepStation x = none → step s = exec .mseqStep { u with cur := x }) ∧
      (∀ st, u.stepStation x = some st → u.readyAt x.cluster (elementOf st) = [] → ∃ v : State, step s = exec .mseqStep v ∧
        v.cur = x ∧ v.mem = u.mem ∧ v.agenda = u.agenda ∧ (v.region x.cluster).expansions = (u.region x.cluster).expansions)) ∧
    (∀ off b, a = .write off b → (u.hostForwards = false → step s = exec (decodeWrite off b) { u with cur := {} }) ∧
      (u.hostForwards = true → step s = .next { u with agenda := .write off b :: u.agenda })) ∧
    (∀ b, a = .board b → step s = .next (u.boardAct b)) ∧
    (∀ n p, a = .manage n p → step s = exec (decodeManage n p) { u with cur := {} }) ∧
    (∀ ir, a = .scan ir → step s = exec (decodeScan ir) { u with cur := { word := ir.zeroExtend 32 } }) ∧
    (∀ q k i, a = .packet q → (u.queue q).current = some k → decodePacket q k.bytes = .ok i →
      step s = exec i { u with cur := { queue := q } }) ∧
    (∀ c d w rest, a = .command c → (u.region c).delivery = some d → d.words = w :: rest → ∃ v : State,
      step s = exec (decodeCommand w) v ∧ v.cur = { cluster := c, word := w } ∧ v.mem = u.mem ∧
      (v.region c).delivery = some { d with words := rest } ∧ .command c ∈ v.agenda) ∧
    (∀ c m t rest i, a = .control c m → (u.mo c m).queue = t :: rest → (u.mo c m).run = none → u.runs c t.tag = true →
      decodeControl t.word = .ok i → ∃ x : Site, step s = exec i { u with cur := x } ∧ x.cluster = c ∧ x.tag = t.tag ∧
        x.word = t.word ∧ x.id = m ∧ x.station = 0x12C0 + m) ∧
    (∀ c st g i, a = .fire c st g → u.canFire c st g = true → u.readyAt c (elementOf st) = [] →
      isHin st = false → decodeRecord (classAt st) (u.raw c st) = .ok i → ∃ v : State, step s = exec i v ∧ v.mem = u.mem ∧
        v.agenda = u.agenda ∧ v.cur = u.firingSite c st (u.opAt c st) (u.recAt c st) g ∧
        (v.region c).store = (u.region c).store ∧ (v.region c).perf.getD 0 0 = (u.region c).perf.getD 0 0 + 1) ∧
    (∀ c st g x i, a = .fire c st g → u.canFire c st g = true → u.readyAt c (elementOf st) = [] →
      isHin st = true → u.hinSite c st = some x → decodeRecord (classAt st) (u.raw c st) = .ok i → ∃ v : State,
        step s = exec i v ∧ v.mem = u.mem ∧ v.agenda = u.agenda ∧ v.cur = x)

/-- The device is READY with nothing due and no context, launch or object. Every byte of memory is zero, every station
is empty, every queue is disabled with QCTL at its reset value and PRIV for q0 to q3 alone, EGCTL is 8 and the other
registers of the block are 0; SYS.SRSEED is 1, SYS.BRKEN, SYS.EXITV and the base slots are 0; every tile and accumulator
is full with its control word at its reset value. The reset values of QCTL, WDOG, the quotas and SYS.SRSEED are the ones
the rules state. The model's own choice: host memory reads as zero where nothing has been written (log 3), and
State.reset stands at the end of the bring-up, with nothing that an outside party has put into the agenda (log 14).
(R65, R146, R205, R287, R398, R399, R430, R445) -/
def Obligations.ResetValues : Prop :=
  let s := State.reset;
    s.toll.boot = .ready ∧ s.agenda = [] ∧ s.contexts = [] ∧ s.launches = [] ∧ s.objects = [] ∧ s.reqs = [] ∧
    (∀ a, s.mem.get a = 0 ∧ s.readPhys a = 0) ∧
    (∀ c a, s.raw c a = {}) ∧
    (∀ q, q < 64 → (s.queue q).qctl.getLsbD 31 = false ∧ (s.queue q).current = none ∧ (s.queue q).wdog = 100000 ∧
      (s.queue q).l1quota = 1024 ∧ (s.queue q).vquota = 256 ∧ (s.queue q).cseq = 0 ∧
      s.readReg (0x10000 + 256 * q) = if q < 4 then 0x40500000#32 else 0x00500000#32) ∧
    (∀ w, w < 0x100 → w ≠ 0x58 → w ≠ 0x90 → s.regWord w = 0) ∧ s.readReg 0x58 = 8 ∧
    (∀ c x, s.sysRead c x 0 = cluidOf c ∧ s.sysRead c x 2 = 0 ∧ s.sysRead c x 3 = 1 ∧ s.sysRead c x 4 = 0 ∧
      ∀ n, 0x100 ≤ n → n < 0x300 → s.sysRead c x n = 0) ∧
    (∀ c g, s.runs c g = false) ∧
    (∀ c n : Nat, ((s.region c).tiles.getD n {}).full = true ∧ ((s.region c).tiles.getD n {}).ctrl = 0x0FFF#32 ∧
      ((s.region c).accs.getD n {}).full = true ∧ ((s.region c).accs.getD n {}).ctrl = 0x3FFF#32)

/-- The memory of the reset state and the vault of every region hold their addresses in rising order with no byte equal
to the byte that an unlisted address reads as. (R445) -/
def Obligations.MemoryFormAtReset : Prop :=
  Safety.memoryOk State.reset = true

/-- From every state whose memory and vaults are in canonical form, whatever is due and whatever it does, a step that
answers a next state answers one whose memory and vaults are in canonical form. With it equal memories are equal data.
(R325, R345, R415, R440, R445) -/
def Obligations.MemoryFormKept : Prop :=
  ∀ s t : State, Safety.memoryOk s = true → step s = .next t → Safety.memoryOk t = true
end

