-- ==== Sys2Proof/Laws/Memory.lean ====
section
/-! SUPPORT. The laws of sparse memory: what is read after a write, and that every operation over bytes keeps the canonical
form. -/

namespace Sys2Proof

/-- The canonical form as a property of the first entry and the rest. -/
theorem Bytes.wf_cons (a : Nat) (v : Byte) (m : Bytes) :
    Bytes.wf ((a, v) :: m) = true ↔ v ≠ unlistedByte ∧ (∀ e, m.head? = some e → a < e.1) ∧ Bytes.wf m = true := by
  cases m with
  | nil => simp [Bytes.wf]
  | cons e rest => obtain ⟨b, w⟩ := e; simp [Bytes.wf, and_assoc]

theorem Bytes.head?_put (m : Bytes) (a : Nat) (v : Byte) (e : Nat × Byte) (hm : Bytes.wf m = true)
    (h : (Bytes.put m a v).head? = some e) : e.1 = a ∨ ∃ x, m.head? = some x ∧ x.1 ≤ e.1 := by
  cases m with
  | nil =>
    simp only [Bytes.put] at h
    split at h
    · simp at h
    · simp at h; subst h; exact .inl rfl
  | cons x rest =>
    obtain ⟨b, w⟩ := x
    have hc := (Bytes.wf_cons b w rest).mp hm
    simp only [Bytes.put] at h
    split at h
    · split at h
      · simp at h; subst h; exact .inr ⟨_, rfl, Nat.le_refl _⟩
      · simp at h; subst h; exact .inl rfl
    · split at h
      · split at h
        · exact .inr ⟨_, rfl, Nat.le_of_lt (hc.2.1 e h)⟩
        · simp at h; subst h; exact .inl rfl
      · simp at h; subst h; exact .inr ⟨_, rfl, Nat.le_refl _⟩

/-- A write of one byte keeps the canonical form. -/
theorem Bytes.wf_put (m : Bytes) (a : Nat) (v : Byte) (h : Bytes.wf m = true) : Bytes.wf (m.put a v) = true := by
  induction m with
  | nil => simp only [Bytes.put]; split <;> simp_all [Bytes.wf]
  | cons e rest ih =>
    obtain ⟨b, w⟩ := e
    have hc := (Bytes.wf_cons b w rest).mp h
    simp only [Bytes.put]
    split
    · split
      · exact h
      · next hv => exact (Bytes.wf_cons a v _).mpr ⟨hv, fun e he => by simp at he; subst he; assumption, h⟩
    · split
      · next hab =>
        subst hab
        split
        · exact hc.2.2
        · next hv => exact (Bytes.wf_cons a v rest).mpr ⟨hv, hc.2⟩
      · refine (Bytes.wf_cons b w _).mpr ⟨hc.1, fun e he => ?_, ih hc.2.2⟩
        rcases Bytes.head?_put rest a v e hc.2.2 he with h1 | ⟨x, h1, h2⟩
        · omega
        · have := hc.2.1 x h1; omega

/-- Below the first address of memory in canonical form nothing is listed. -/
theorem Bytes.get_below (m : Bytes) (a : Nat) (h : Bytes.wf m = true) (hl : ∀ e, m.head? = some e → a < e.1) :
    m.get a = unlistedByte := by
  induction m with
  | nil => rfl
  | cons e rest ih =>
    obtain ⟨b, w⟩ := e
    have hb : a < b := hl _ rfl
    have hc := (Bytes.wf_cons b w rest).mp h
    simp only [Bytes.get]
    rw [if_neg (by omega)]
    exact ih hc.2.2 (fun e he => by have := hc.2.1 e he; omega)

/-- A byte that was written reads as it was written. -/
theorem Bytes.get_put_self (m : Bytes) (a : Nat) (v : Byte) (h : Bytes.wf m = true) : (m.put a v).get a = v := by
  induction m with
  | nil => simp only [Bytes.put]; split <;> simp_all [Bytes.get]
  | cons e rest ih =>
    obtain ⟨b, w⟩ := e
    have hc := (Bytes.wf_cons b w rest).mp h
    simp only [Bytes.put]
    split
    · next hab =>
      split
      · next hv =>
        rw [Bytes.get_below _ _ h (fun e he => by simp at he; subst he; exact hab)]; exact hv.symm
      · simp [Bytes.get]
    · split
      · next hab =>
        subst hab
        split
        · next hv => rw [Bytes.get_below _ _ hc.2.2 hc.2.1]; exact hv.symm
        · simp [Bytes.get]
      · next hab => simp only [Bytes.get]; rw [if_neg hab]; exact ih hc.2.2

/-- A byte that was not written reads as before. -/
theorem Bytes.get_put_ne (m : Bytes) {a c : Nat} (v : Byte) (h : Bytes.wf m = true) (hne : c ≠ a) :
    (m.put a v).get c = m.get c := by
  induction m with
  | nil => simp only [Bytes.put]; split <;> simp [Bytes.get, hne]
  | cons e rest ih =>
    obtain ⟨b, w⟩ := e
    have hc := (Bytes.wf_cons b w rest).mp h
    simp only [Bytes.put]
    split
    · split
      · rfl
      · simp only [Bytes.get, if_neg hne]
    · split
      · next hab =>
        subst hab
        split <;> simp only [Bytes.get, if_neg hne]
      · simp only [Bytes.get]; rw [ih hc.2.2]

/-- A write of a run of bytes keeps the canonical form. -/
theorem Bytes.wf_putRange (m : Bytes) (a : Nat) (bs : List Byte) (h : Bytes.wf m = true) :
    Bytes.wf (m.putRange a bs) = true := by
  induction bs generalizing m a with
  | nil => exact h
  | cons b rest ih => exact ih _ _ (Bytes.wf_put m a b h)

/-- A byte outside a run that was written reads as before. -/
theorem Bytes.get_putRange_outside (m : Bytes) (a c : Nat) (bs : List Byte) (h : Bytes.wf m = true)
    (ho : c < a ∨ a + bs.length ≤ c) : (m.putRange a bs).get c = m.get c := by
  induction bs generalizing m a with
  | nil => rfl
  | cons b rest ih =>
    simp only [List.length_cons] at ho
    simp only [Bytes.putRange]
    rw [ih _ _ (Bytes.wf_put m a b h) (by omega), Bytes.get_put_ne m b h (by omega)]

/-- A byte of a run that was written reads as it was written. -/
theorem Bytes.get_putRange_inside (m : Bytes) (a i : Nat) (bs : List Byte) (h : Bytes.wf m = true)
    (hi : i < bs.length) : (m.putRange a bs).get (a + i) = bs[i] := by
  induction bs generalizing m a i with
  | nil => simp at hi
  | cons b rest ih =>
    simp only [Bytes.putRange]
    cases i with
    | zero =>
      rw [Bytes.get_putRange_outside _ _ _ _ (Bytes.wf_put m a b h) (by omega)]
      exact Bytes.get_put_self m a b h
    | succ n =>
      have := ih (m.put a b) (a + 1) n (Bytes.wf_put m a b h) (by simpa using hi)
      rw [show a + (n + 1) = a + 1 + n by omega]
      simpa using this

/-- The head of memory that keeps some of its entries is one of them, at no lower address than the head before. -/
theorem Bytes.head?_filter (m : Bytes) (p : Nat × Byte → Bool) (h : Bytes.wf m = true) (e x : Nat × Byte)
    (hx : m.head? = some x) (he : (m.filter p).head? = some e) : x.1 ≤ e.1 := by
  induction m generalizing x with
  | nil => simp at hx
  | cons y rest ih =>
    obtain ⟨b, w⟩ := y
    have hc := (Bytes.wf_cons b w rest).mp h
    simp at hx; subst hx
    rw [List.filter_cons] at he
    split at he
    · simp at he; subst he; exact Nat.le_refl _
    · cases rest with
      | nil => simp at he
      | cons z tail =>
        have h1 := hc.2.1 z rfl
        have h2 := ih hc.2.2 z rfl he
        exact Nat.le_trans (Nat.le_of_lt h1) h2

/-- Memory that keeps some of its entries keeps the canonical form. -/
theorem Bytes.wf_filter (m : Bytes) (p : Nat × Byte → Bool) (h : Bytes.wf m = true) : Bytes.wf (m.filter p) = true := by
  induction m with
  | nil => rfl
  | cons e rest ih =>
    obtain ⟨b, w⟩ := e
    have hc := (Bytes.wf_cons b w rest).mp h
    rw [List.filter_cons]
    split
    · refine (Bytes.wf_cons b w _).mpr ⟨hc.1, fun e he => ?_, ih hc.2.2⟩
      cases rest with
      | nil => simp at he
      | cons z tail =>
        have h1 := hc.2.1 z rfl
        have h2 := Bytes.head?_filter _ p hc.2.2 e z rfl he
        omega
    · exact ih hc.2.2

/-- Memory with bytes written one after another keeps the canonical form. -/
theorem Bytes.wf_foldl_put {α : Type} (l : List α) (f : α → Nat) (g : α → Byte) (m : Bytes) (h : Bytes.wf m = true) :
    Bytes.wf (l.foldl (fun m e => m.put (f e) (g e)) m) = true := by
  induction l generalizing m with
  | nil => exact h
  | cons e rest ih => exact ih _ (Bytes.wf_put m _ _ h)

end Sys2Proof
end

