-- ==== Sys2Proof/Laws/PerInstr.lean ====
section
/-! SUPPORT. One lemma for each instruction: the opcode and fields that a station instruction stands for give the instruction
back. -/

namespace Sys2Proof.Laws.RecordForm

/-- The opcode of a station instruction is eight bits wide, and with the fields of its record it names the instruction, whose flags tell
its form (R76, R103, R245, R293). -/
def Statement (i : Instr) : Prop :=
  ∀ op r, i.record? = some (op, r) → op < 256 ∧ (i.formOk = true → stationInstr op r = some i)

theorem ofForm {i : Instr} (op : Nat) (r : Rec) (hr : i.record? = some (op, r)) (ho : op < 256)
    (hs : i.formOk = true → stationInstr op r = some i) : Statement i := by
  intro op' r' h
  rw [hr] at h
  cases h
  exact ⟨ho, hs⟩

theorem noRecord {i : Instr} (h : i.record? = none) : Statement i := by
  intro op r k
  rw [h] at k
  cases k

theorem readForm (r : Rec) : stationInstr 0xA4 r = some (if r.flags.getLsbD 0 then .qreadLocal r else .qread r) := rfl

theorem loadForm (r : Rec) :
    stationInstr 0xE1 r = some (if r.flags.getLsbD 0 then .tldTok r else if r.flags.getLsbD 1 then .tldStr r else .tld r) := rfl

theorem storeForm (r : Rec) : stationInstr 0xE2 r = some (if r.flags.getLsbD 0 then .tstTok r else .tst r) := rfl

end Sys2Proof.Laws.RecordForm

open Sys2Proof Sys2Proof.Laws.RecordForm

theorem Sys2Proof.Laws.RecordForm.illegal (r : Rec) : Statement (.illegal r) := ofForm 0x00 r rfl (by decide) (fun _ => rfl)
theorem Sys2Proof.Laws.RecordForm.fan (r : Rec) : Statement (.fan r) := ofForm 0x01 r rfl (by decide) (fun _ => rfl)
theorem Sys2Proof.Laws.RecordForm.const (r : Rec) : Statement (.const r) := ofForm 0x02 r rfl (by decide) (fun _ => rfl)
theorem Sys2Proof.Laws.RecordForm.steer (r : Rec) : Statement (.steer r) := ofForm 0x03 r rfl (by decide) (fun _ => rfl)
theorem Sys2Proof.Laws.RecordForm.sel (r : Rec) : Statement (.sel r) := ofForm 0x04 r rfl (by decide) (fun _ => rfl)
theorem Sys2Proof.Laws.RecordForm.merge (r : Rec) : Statement (.merge r) := ofForm 0x05 r rfl (by decide) (fun _ => rfl)
theorem Sys2Proof.Laws.RecordForm.wadv (r : Rec) : Statement (.wadv r) := ofForm 0x06 r rfl (by decide) (fun _ => rfl)
theorem Sys2Proof.Laws.RecordForm.exit (r : Rec) : Statement (.exit r) := ofForm 0x07 r rfl (by decide) (fun _ => rfl)
theorem Sys2Proof.Laws.RecordForm.gate (r : Rec) : Statement (.gate r) := ofForm 0x08 r rfl (by decide) (fun _ => rfl)
theorem Sys2Proof.Laws.RecordForm.sink (r : Rec) : Statement (.sink r) := ofForm 0x09 r rfl (by decide) (fun _ => rfl)
theorem Sys2Proof.Laws.RecordForm.purge (r : Rec) : Statement (.purge r) := ofForm 0x0A r rfl (by decide) (fun _ => rfl)
theorem Sys2Proof.Laws.RecordForm.coord (r : Rec) : Statement (.coord r) := ofForm 0x0B r rfl (by decide) (fun _ => rfl)
theorem Sys2Proof.Laws.RecordForm.tagrd (r : Rec) : Statement (.tagrd r) := ofForm 0x0C r rfl (by decide) (fun _ => rfl)
theorem Sys2Proof.Laws.RecordForm.tagwr (r : Rec) : Statement (.tagwr r) := ofForm 0x0D r rfl (by decide) (fun _ => rfl)
theorem Sys2Proof.Laws.RecordForm.call (r : Rec) : Statement (.call r) := ofForm 0x0E r rfl (by decide) (fun _ => rfl)
theorem Sys2Proof.Laws.RecordForm.ret (r : Rec) : Statement (.ret r) := ofForm 0x0F r rfl (by decide) (fun _ => rfl)
theorem Sys2Proof.Laws.RecordForm.add (r : Rec) : Statement (.add r) := ofForm 0x10 r rfl (by decide) (fun _ => rfl)
theorem Sys2Proof.Laws.RecordForm.sub (r : Rec) : Statement (.sub r) := ofForm 0x11 r rfl (by decide) (fun _ => rfl)
theorem Sys2Proof.Laws.RecordForm.addc (r : Rec) : Statement (.addc r) := ofForm 0x12 r rfl (by decide) (fun _ => rfl)
theorem Sys2Proof.Laws.RecordForm.subb (r : Rec) : Statement (.subb r) := ofForm 0x13 r rfl (by decide) (fun _ => rfl)
theorem Sys2Proof.Laws.RecordForm.mul (r : Rec) : Statement (.mul r) := ofForm 0x14 r rfl (by decide) (fun _ => rfl)
theorem Sys2Proof.Laws.RecordForm.mulhs (r : Rec) : Statement (.mulhs r) := ofForm 0x15 r rfl (by decide) (fun _ => rfl)
theorem Sys2Proof.Laws.RecordForm.mulhn (r : Rec) : Statement (.mulhn r) := ofForm 0x16 r rfl (by decide) (fun _ => rfl)
theorem Sys2Proof.Laws.RecordForm.divs (r : Rec) : Statement (.divs r) := ofForm 0x17 r rfl (by decide) (fun _ => rfl)
theorem Sys2Proof.Laws.RecordForm.divn (r : Rec) : Statement (.divn r) := ofForm 0x18 r rfl (by decide) (fun _ => rfl)
theorem Sys2Proof.Laws.RecordForm.rems (r : Rec) : Statement (.rems r) := ofForm 0x19 r rfl (by decide) (fun _ => rfl)
theorem Sys2Proof.Laws.RecordForm.remn (r : Rec) : Statement (.remn r) := ofForm 0x1A r rfl (by decide) (fun _ => rfl)
theorem Sys2Proof.Laws.RecordForm.abs (r : Rec) : Statement (.abs r) := ofForm 0x1B r rfl (by decide) (fun _ => rfl)
theorem Sys2Proof.Laws.RecordForm.mins (r : Rec) : Statement (.mins r) := ofForm 0x1C r rfl (by decide) (fun _ => rfl)
theorem Sys2Proof.Laws.RecordForm.maxs (r : Rec) : Statement (.maxs r) := ofForm 0x1D r rfl (by decide) (fun _ => rfl)
theorem Sys2Proof.Laws.RecordForm.minn (r : Rec) : Statement (.minn r) := ofForm 0x1E r rfl (by decide) (fun _ => rfl)
theorem Sys2Proof.Laws.RecordForm.maxn (r : Rec) : Statement (.maxn r) := ofForm 0x1F r rfl (by decide) (fun _ => rfl)
theorem Sys2Proof.Laws.RecordForm.and (r : Rec) : Statement (.and r) := ofForm 0x20 r rfl (by decide) (fun _ => rfl)
theorem Sys2Proof.Laws.RecordForm.or (r : Rec) : Statement (.or r) := ofForm 0x21 r rfl (by decide) (fun _ => rfl)
theorem Sys2Proof.Laws.RecordForm.xor (r : Rec) : Statement (.xor r) := ofForm 0x22 r rfl (by decide) (fun _ => rfl)
theorem Sys2Proof.Laws.RecordForm.andn (r : Rec) : Statement (.andn r) := ofForm 0x23 r rfl (by decide) (fun _ => rfl)
theorem Sys2Proof.Laws.RecordForm.not (r : Rec) : Statement (.not r) := ofForm 0x24 r rfl (by decide) (fun _ => rfl)
theorem Sys2Proof.Laws.RecordForm.shl (r : Rec) : Statement (.shl r) := ofForm 0x25 r rfl (by decide) (fun _ => rfl)
theorem Sys2Proof.Laws.RecordForm.shr (r : Rec) : Statement (.shr r) := ofForm 0x26 r rfl (by decide) (fun _ => rfl)
theorem Sys2Proof.Laws.RecordForm.sar (r : Rec) : Statement (.sar r) := ofForm 0x27 r rfl (by decide) (fun _ => rfl)
theorem Sys2Proof.Laws.RecordForm.rol (r : Rec) : Statement (.rol r) := ofForm 0x28 r rfl (by decide) (fun _ => rfl)
theorem Sys2Proof.Laws.RecordForm.ror (r : Rec) : Statement (.ror r) := ofForm 0x29 r rfl (by decide) (fun _ => rfl)
theorem Sys2Proof.Laws.RecordForm.clz (r : Rec) : Statement (.clz r) := ofForm 0x2A r rfl (by decide) (fun _ => rfl)
theorem Sys2Proof.Laws.RecordForm.ctz (r : Rec) : Statement (.ctz r) := ofForm 0x2B r rfl (by decide) (fun _ => rfl)
theorem Sys2Proof.Laws.RecordForm.popc (r : Rec) : Statement (.popc r) := ofForm 0x2C r rfl (by decide) (fun _ => rfl)
theorem Sys2Proof.Laws.RecordForm.brev (r : Rec) : Statement (.brev r) := ofForm 0x2D r rfl (by decide) (fun _ => rfl)
theorem Sys2Proof.Laws.RecordForm.bfx (r : Rec) : Statement (.bfx r) := ofForm 0x2E r rfl (by decide) (fun _ => rfl)
theorem Sys2Proof.Laws.RecordForm.bfi (r : Rec) : Statement (.bfi r) := ofForm 0x2F r rfl (by decide) (fun _ => rfl)
theorem Sys2Proof.Laws.RecordForm.ceq (r : Rec) : Statement (.ceq r) := ofForm 0x30 r rfl (by decide) (fun _ => rfl)
theorem Sys2Proof.Laws.RecordForm.cne (r : Rec) : Statement (.cne r) := ofForm 0x31 r rfl (by decide) (fun _ => rfl)
theorem Sys2Proof.Laws.RecordForm.clts (r : Rec) : Statement (.clts r) := ofForm 0x32 r rfl (by decide) (fun _ => rfl)
theorem Sys2Proof.Laws.RecordForm.cles (r : Rec) : Statement (.cles r) := ofForm 0x33 r rfl (by decide) (fun _ => rfl)
theorem Sys2Proof.Laws.RecordForm.cltn (r : Rec) : Statement (.cltn r) := ofForm 0x34 r rfl (by decide) (fun _ => rfl)
theorem Sys2Proof.Laws.RecordForm.clen (r : Rec) : Statement (.clen r) := ofForm 0x35 r rfl (by decide) (fun _ => rfl)
theorem Sys2Proof.Laws.RecordForm.cbit (r : Rec) : Statement (.cbit r) := ofForm 0x36 r rfl (by decide) (fun _ => rfl)
theorem Sys2Proof.Laws.RecordForm.pand (r : Rec) : Statement (.pand r) := ofForm 0x37 r rfl (by decide) (fun _ => rfl)
theorem Sys2Proof.Laws.RecordForm.por (r : Rec) : Statement (.por r) := ofForm 0x38 r rfl (by decide) (fun _ => rfl)
theorem Sys2Proof.Laws.RecordForm.pxor (r : Rec) : Statement (.pxor r) := ofForm 0x39 r rfl (by decide) (fun _ => rfl)
theorem Sys2Proof.Laws.RecordForm.pnot (r : Rec) : Statement (.pnot r) := ofForm 0x3A r rfl (by decide) (fun _ => rfl)
theorem Sys2Proof.Laws.RecordForm.lea (r : Rec) : Statement (.lea r) := ofForm 0x40 r rfl (by decide) (fun _ => rfl)
theorem Sys2Proof.Laws.RecordForm.sext (r : Rec) : Statement (.sext r) := ofForm 0x41 r rfl (by decide) (fun _ => rfl)
theorem Sys2Proof.Laws.RecordForm.zext (r : Rec) : Statement (.zext r) := ofForm 0x42 r rfl (by decide) (fun _ => rfl)
theorem Sys2Proof.Laws.RecordForm.pack2 (r : Rec) : Statement (.pack2 r) := ofForm 0x43 r rfl (by decide) (fun _ => rfl)
theorem Sys2Proof.Laws.RecordForm.pack4 (r : Rec) : Statement (.pack4 r) := ofForm 0x44 r rfl (by decide) (fun _ => rfl)
theorem Sys2Proof.Laws.RecordForm.unpk (r : Rec) : Statement (.unpk r) := ofForm 0x45 r rfl (by decide) (fun _ => rfl)
theorem Sys2Proof.Laws.RecordForm.swz (r : Rec) : Statement (.swz r) := ofForm 0x46 r rfl (by decide) (fun _ => rfl)
theorem Sys2Proof.Laws.RecordForm.addp (r : Rec) : Statement (.addp r) := ofForm 0x47 r rfl (by decide) (fun _ => rfl)
theorem Sys2Proof.Laws.RecordForm.subp (r : Rec) : Statement (.subp r) := ofForm 0x48 r rfl (by decide) (fun _ => rfl)
theorem Sys2Proof.Laws.RecordForm.avgp (r : Rec) : Statement (.avgp r) := ofForm 0x49 r rfl (by decide) (fun _ => rfl)
theorem Sys2Proof.Laws.RecordForm.absdp (r : Rec) : Statement (.absdp r) := ofForm 0x4A r rfl (by decide) (fun _ => rfl)
theorem Sys2Proof.Laws.RecordForm.fadd (r : Rec) : Statement (.fadd r) := ofForm 0x50 r rfl (by decide) (fun _ => rfl)
theorem Sys2Proof.Laws.RecordForm.fsub (r : Rec) : Statement (.fsub r) := ofForm 0x51 r rfl (by decide) (fun _ => rfl)
theorem Sys2Proof.Laws.RecordForm.fmul (r : Rec) : Statement (.fmul r) := ofForm 0x52 r rfl (by decide) (fun _ => rfl)
theorem Sys2Proof.Laws.RecordForm.ffma (r : Rec) : Statement (.ffma r) := ofForm 0x53 r rfl (by decide) (fun _ => rfl)
theorem Sys2Proof.Laws.RecordForm.ffms (r : Rec) : Statement (.ffms r) := ofForm 0x54 r rfl (by decide) (fun _ => rfl)
theorem Sys2Proof.Laws.RecordForm.fmin (r : Rec) : Statement (.fmin r) := ofForm 0x55 r rfl (by decide) (fun _ => rfl)
theorem Sys2Proof.Laws.RecordForm.fmax (r : Rec) : Statement (.fmax r) := ofForm 0x56 r rfl (by decide) (fun _ => rfl)
theorem Sys2Proof.Laws.RecordForm.fabs (r : Rec) : Statement (.fabs r) := ofForm 0x57 r rfl (by decide) (fun _ => rfl)
theorem Sys2Proof.Laws.RecordForm.fneg (r : Rec) : Statement (.fneg r) := ofForm 0x58 r rfl (by decide) (fun _ => rfl)
theorem Sys2Proof.Laws.RecordForm.fcmp (r : Rec) : Statement (.fcmp r) := ofForm 0x59 r rfl (by decide) (fun _ => rfl)
theorem Sys2Proof.Laws.RecordForm.fdiv (r : Rec) : Statement (.fdiv r) := ofForm 0x5A r rfl (by decide) (fun _ => rfl)
theorem Sys2Proof.Laws.RecordForm.fsqrt (r : Rec) : Statement (.fsqrt r) := ofForm 0x5B r rfl (by decide) (fun _ => rfl)
theorem Sys2Proof.Laws.RecordForm.frcp (r : Rec) : Statement (.frcp r) := ofForm 0x5C r rfl (by decide) (fun _ => rfl)
theorem Sys2Proof.Laws.RecordForm.frsq (r : Rec) : Statement (.frsq r) := ofForm 0x5D r rfl (by decide) (fun _ => rfl)
theorem Sys2Proof.Laws.RecordForm.fclass (r : Rec) : Statement (.fclass r) := ofForm 0x5E r rfl (by decide) (fun _ => rfl)
theorem Sys2Proof.Laws.RecordForm.fexp2 (r : Rec) : Statement (.fexp2 r) := ofForm 0x5F r rfl (by decide) (fun _ => rfl)
theorem Sys2Proof.Laws.RecordForm.cvtif (r : Rec) : Statement (.cvtif r) := ofForm 0x60 r rfl (by decide) (fun _ => rfl)
theorem Sys2Proof.Laws.RecordForm.cvtfi (r : Rec) : Statement (.cvtfi r) := ofForm 0x61 r rfl (by decide) (fun _ => rfl)
theorem Sys2Proof.Laws.RecordForm.cvtff (r : Rec) : Statement (.cvtff r) := ofForm 0x62 r rfl (by decide) (fun _ => rfl)
theorem Sys2Proof.Laws.RecordForm.fround (r : Rec) : Statement (.fround r) := ofForm 0x63 r rfl (by decide) (fun _ => rfl)
theorem Sys2Proof.Laws.RecordForm.ld (r : Rec) : Statement (.ld r) := ofForm 0x70 r rfl (by decide) (fun _ => rfl)
theorem Sys2Proof.Laws.RecordForm.st (r : Rec) : Statement (.st r) := ofForm 0x71 r rfl (by decide) (fun _ => rfl)
theorem Sys2Proof.Laws.RecordForm.lda (r : Rec) : Statement (.lda r) := ofForm 0x72 r rfl (by decide) (fun _ => rfl)
theorem Sys2Proof.Laws.RecordForm.stl (r : Rec) : Statement (.stl r) := ofForm 0x73 r rfl (by decide) (fun _ => rfl)
theorem Sys2Proof.Laws.RecordForm.mnop (r : Rec) : Statement (.mnop r) := ofForm 0x74 r rfl (by decide) (fun _ => rfl)
theorem Sys2Proof.Laws.RecordForm.fence (r : Rec) : Statement (.fence r) := ofForm 0x75 r rfl (by decide) (fun _ => rfl)
theorem Sys2Proof.Laws.RecordForm.pref (r : Rec) : Statement (.pref r) := ofForm 0x76 r rfl (by decide) (fun _ => rfl)
theorem Sys2Proof.Laws.RecordForm.ldu (r : Rec) : Statement (.ldu r) := ofForm 0x80 r rfl (by decide) (fun _ => rfl)
theorem Sys2Proof.Laws.RecordForm.stu (r : Rec) : Statement (.stu r) := ofForm 0x81 r rfl (by decide) (fun _ => rfl)
theorem Sys2Proof.Laws.RecordForm.ldw (r : Rec) : Statement (.ldw r) := ofForm 0x82 r rfl (by decide) (fun _ => rfl)
theorem Sys2Proof.Laws.RecordForm.stw (r : Rec) : Statement (.stw r) := ofForm 0x83 r rfl (by decide) (fun _ => rfl)
theorem Sys2Proof.Laws.RecordForm.pin (r : Rec) : Statement (.pin r) := ofForm 0x84 r rfl (by decide) (fun _ => rfl)
theorem Sys2Proof.Laws.RecordForm.unpin (r : Rec) : Statement (.unpin r) := ofForm 0x85 r rfl (by decide) (fun _ => rfl)
theorem Sys2Proof.Laws.RecordForm.flush (r : Rec) : Statement (.flush r) := ofForm 0x86 r rfl (by decide) (fun _ => rfl)
theorem Sys2Proof.Laws.RecordForm.inval (r : Rec) : Statement (.inval r) := ofForm 0x87 r rfl (by decide) (fun _ => rfl)
theorem Sys2Proof.Laws.RecordForm.aadd (r : Rec) : Statement (.aadd r) := ofForm 0x90 r rfl (by decide) (fun _ => rfl)
theorem Sys2Proof.Laws.RecordForm.amins (r : Rec) : Statement (.amins r) := ofForm 0x91 r rfl (by decide) (fun _ => rfl)
theorem Sys2Proof.Laws.RecordForm.amaxs (r : Rec) : Statement (.amaxs r) := ofForm 0x92 r rfl (by decide) (fun _ => rfl)
theorem Sys2Proof.Laws.RecordForm.aminn (r : Rec) : Statement (.aminn r) := ofForm 0x93 r rfl (by decide) (fun _ => rfl)
theorem Sys2Proof.Laws.RecordForm.amaxn (r : Rec) : Statement (.amaxn r) := ofForm 0x94 r rfl (by decide) (fun _ => rfl)
theorem Sys2Proof.Laws.RecordForm.aand (r : Rec) : Statement (.aand r) := ofForm 0x95 r rfl (by decide) (fun _ => rfl)
theorem Sys2Proof.Laws.RecordForm.aor (r : Rec) : Statement (.aor r) := ofForm 0x96 r rfl (by decide) (fun _ => rfl)
theorem Sys2Proof.Laws.RecordForm.axor (r : Rec) : Statement (.axor r) := ofForm 0x97 r rfl (by decide) (fun _ => rfl)
theorem Sys2Proof.Laws.RecordForm.axchg (r : Rec) : Statement (.axchg r) := ofForm 0x98 r rfl (by decide) (fun _ => rfl)
theorem Sys2Proof.Laws.RecordForm.acas (r : Rec) : Statement (.acas r) := ofForm 0x99 r rfl (by decide) (fun _ => rfl)
theorem Sys2Proof.Laws.RecordForm.afadd (r : Rec) : Statement (.afadd r) := ofForm 0x9A r rfl (by decide) (fun _ => rfl)
theorem Sys2Proof.Laws.RecordForm.qinit (r : Rec) : Statement (.qinit r) := ofForm 0xA0 r rfl (by decide) (fun _ => rfl)
theorem Sys2Proof.Laws.RecordForm.qtake (r : Rec) : Statement (.qtake r) := ofForm 0xA1 r rfl (by decide) (fun _ => rfl)
theorem Sys2Proof.Laws.RecordForm.qtakew (r : Rec) : Statement (.qtakew r) := ofForm 0xA2 r rfl (by decide) (fun _ => rfl)
theorem Sys2Proof.Laws.RecordForm.qgive (r : Rec) : Statement (.qgive r) := ofForm 0xA3 r rfl (by decide) (fun _ => rfl)
theorem Sys2Proof.Laws.RecordForm.qread (r : Rec) : Statement (.qread r) := ofForm 0xA4 r rfl (by decide) (fun h => by
    have k : (!r.flags.getLsbD 0) = true := h
    rw [readForm]; simp_all)
theorem Sys2Proof.Laws.RecordForm.qreadLocal (r : Rec) : Statement (.qreadLocal r) := ofForm 0xA4 r rfl (by decide) (fun h => by
    have k : r.flags.getLsbD 0 = true := h
    rw [readForm]; simp_all)
theorem Sys2Proof.Laws.RecordForm.qpol (r : Rec) : Statement (.qpol r) := ofForm 0xA5 r rfl (by decide) (fun _ => rfl)
theorem Sys2Proof.Laws.RecordForm.preg (r : Rec) : Statement (.preg r) := ofForm 0xA6 r rfl (by decide) (fun _ => rfl)
theorem Sys2Proof.Laws.RecordForm.psig (r : Rec) : Statement (.psig r) := ofForm 0xA7 r rfl (by decide) (fun _ => rfl)
theorem Sys2Proof.Laws.RecordForm.pwait (r : Rec) : Statement (.pwait r) := ofForm 0xA8 r rfl (by decide) (fun _ => rfl)
theorem Sys2Proof.Laws.RecordForm.pdrop (r : Rec) : Statement (.pdrop r) := ofForm 0xA9 r rfl (by decide) (fun _ => rfl)
theorem Sys2Proof.Laws.RecordForm.pstat (r : Rec) : Statement (.pstat r) := ofForm 0xAA r rfl (by decide) (fun _ => rfl)
theorem Sys2Proof.Laws.RecordForm.join (r : Rec) : Statement (.join r) := ofForm 0xAB r rfl (by decide) (fun _ => rfl)
theorem Sys2Proof.Laws.RecordForm.jcfg (r : Rec) : Statement (.jcfg r) := ofForm 0xAC r rfl (by decide) (fun _ => rfl)
theorem Sys2Proof.Laws.RecordForm.carm (r : Rec) : Statement (.carm r) := ofForm 0xB0 r rfl (by decide) (fun _ => rfl)
theorem Sys2Proof.Laws.RecordForm.cset (r : Rec) : Statement (.cset r) := ofForm 0xB1 r rfl (by decide) (fun _ => rfl)
theorem Sys2Proof.Laws.RecordForm.cfire (r : Rec) : Statement (.cfire r) := ofForm 0xB2 r rfl (by decide) (fun _ => rfl)
theorem Sys2Proof.Laws.RecordForm.cstat (r : Rec) : Statement (.cstat r) := ofForm 0xB3 r rfl (by decide) (fun _ => rfl)
theorem Sys2Proof.Laws.RecordForm.ccancel (r : Rec) : Statement (.ccancel r) := ofForm 0xB4 r rfl (by decide) (fun _ => rfl)
theorem Sys2Proof.Laws.RecordForm.chbind (r : Rec) : Statement (.chbind r) := ofForm 0xB5 r rfl (by decide) (fun _ => rfl)
theorem Sys2Proof.Laws.RecordForm.chexp (r : Rec) : Statement (.chexp r) := ofForm 0xB6 r rfl (by decide) (fun _ => rfl)
theorem Sys2Proof.Laws.RecordForm.hin (r : Rec) : Statement (.hin r) := ofForm 0xB7 r rfl (by decide) (fun _ => rfl)
theorem Sys2Proof.Laws.RecordForm.hout (r : Rec) : Statement (.hout r) := ofForm 0xB8 r rfl (by decide) (fun _ => rfl)
theorem Sys2Proof.Laws.RecordForm.xsend (r : Rec) : Statement (.xsend r) := ofForm 0xB9 r rfl (by decide) (fun _ => rfl)
theorem Sys2Proof.Laws.RecordForm.vadd (r : Rec) : Statement (.vadd r) := ofForm 0xC0 r rfl (by decide) (fun _ => rfl)
theorem Sys2Proof.Laws.RecordForm.vsub (r : Rec) : Statement (.vsub r) := ofForm 0xC1 r rfl (by decide) (fun _ => rfl)
theorem Sys2Proof.Laws.RecordForm.vmul (r : Rec) : Statement (.vmul r) := ofForm 0xC2 r rfl (by decide) (fun _ => rfl)
theorem Sys2Proof.Laws.RecordForm.vfma (r : Rec) : Statement (.vfma r) := ofForm 0xC3 r rfl (by decide) (fun _ => rfl)
theorem Sys2Proof.Laws.RecordForm.vmin (r : Rec) : Statement (.vmin r) := ofForm 0xC4 r rfl (by decide) (fun _ => rfl)
theorem Sys2Proof.Laws.RecordForm.vmax (r : Rec) : Statement (.vmax r) := ofForm 0xC5 r rfl (by decide) (fun _ => rfl)
theorem Sys2Proof.Laws.RecordForm.vabs (r : Rec) : Statement (.vabs r) := ofForm 0xC6 r rfl (by decide) (fun _ => rfl)
theorem Sys2Proof.Laws.RecordForm.vneg (r : Rec) : Statement (.vneg r) := ofForm 0xC7 r rfl (by decide) (fun _ => rfl)
theorem Sys2Proof.Laws.RecordForm.vcmp (r : Rec) : Statement (.vcmp r) := ofForm 0xC8 r rfl (by decide) (fun _ => rfl)
theorem Sys2Proof.Laws.RecordForm.vsel (r : Rec) : Statement (.vsel r) := ofForm 0xC9 r rfl (by decide) (fun _ => rfl)
theorem Sys2Proof.Laws.RecordForm.vexp2 (r : Rec) : Statement (.vexp2 r) := ofForm 0xCA r rfl (by decide) (fun _ => rfl)
theorem Sys2Proof.Laws.RecordForm.vlog2 (r : Rec) : Statement (.vlog2 r) := ofForm 0xCB r rfl (by decide) (fun _ => rfl)
theorem Sys2Proof.Laws.RecordForm.vrcp (r : Rec) : Statement (.vrcp r) := ofForm 0xCC r rfl (by decide) (fun _ => rfl)
theorem Sys2Proof.Laws.RecordForm.vrsq (r : Rec) : Statement (.vrsq r) := ofForm 0xCD r rfl (by decide) (fun _ => rfl)
theorem Sys2Proof.Laws.RecordForm.vtanh (r : Rec) : Statement (.vtanh r) := ofForm 0xCE r rfl (by decide) (fun _ => rfl)
theorem Sys2Proof.Laws.RecordForm.vsigm (r : Rec) : Statement (.vsigm r) := ofForm 0xCF r rfl (by decide) (fun _ => rfl)
theorem Sys2Proof.Laws.RecordForm.vred (r : Rec) : Statement (.vred r) := ofForm 0xD0 r rfl (by decide) (fun _ => rfl)
theorem Sys2Proof.Laws.RecordForm.vscan (r : Rec) : Statement (.vscan r) := ofForm 0xD1 r rfl (by decide) (fun _ => rfl)
theorem Sys2Proof.Laws.RecordForm.vperm (r : Rec) : Statement (.vperm r) := ofForm 0xD2 r rfl (by decide) (fun _ => rfl)
theorem Sys2Proof.Laws.RecordForm.vbcast (r : Rec) : Statement (.vbcast r) := ofForm 0xD3 r rfl (by decide) (fun _ => rfl)
theorem Sys2Proof.Laws.RecordForm.vshuf (r : Rec) : Statement (.vshuf r) := ofForm 0xD4 r rfl (by decide) (fun _ => rfl)
theorem Sys2Proof.Laws.RecordForm.vcvt (r : Rec) : Statement (.vcvt r) := ofForm 0xD5 r rfl (by decide) (fun _ => rfl)
theorem Sys2Proof.Laws.RecordForm.vquant (r : Rec) : Statement (.vquant r) := ofForm 0xD6 r rfl (by decide) (fun _ => rfl)
theorem Sys2Proof.Laws.RecordForm.vdeq (r : Rec) : Statement (.vdeq r) := ofForm 0xD7 r rfl (by decide) (fun _ => rfl)
theorem Sys2Proof.Laws.RecordForm.vpack (r : Rec) : Statement (.vpack r) := ofForm 0xD8 r rfl (by decide) (fun _ => rfl)
theorem Sys2Proof.Laws.RecordForm.vunpk (r : Rec) : Statement (.vunpk r) := ofForm 0xD9 r rfl (by decide) (fun _ => rfl)
theorem Sys2Proof.Laws.RecordForm.viota (r : Rec) : Statement (.viota r) := ofForm 0xDA r rfl (by decide) (fun _ => rfl)
theorem Sys2Proof.Laws.RecordForm.vsplat (r : Rec) : Statement (.vsplat r) := ofForm 0xDB r rfl (by decide) (fun _ => rfl)
theorem Sys2Proof.Laws.RecordForm.tcfg (r : Rec) : Statement (.tcfg r) := ofForm 0xE0 r rfl (by decide) (fun _ => rfl)
theorem Sys2Proof.Laws.RecordForm.tld (r : Rec) : Statement (.tld r) := ofForm 0xE1 r rfl (by decide) (fun h => by
    have k : (!r.flags.getLsbD 0 && !r.flags.getLsbD 1) = true := h
    rw [loadForm]; simp_all)
theorem Sys2Proof.Laws.RecordForm.tldStr (r : Rec) : Statement (.tldStr r) := ofForm 0xE1 r rfl (by decide) (fun h => by
    have k : (!r.flags.getLsbD 0 && r.flags.getLsbD 1) = true := h
    rw [loadForm]; simp_all)
theorem Sys2Proof.Laws.RecordForm.tldTok (r : Rec) : Statement (.tldTok r) := ofForm 0xE1 r rfl (by decide) (fun h => by
    have k : r.flags.getLsbD 0 = true := h
    rw [loadForm]; simp_all)
theorem Sys2Proof.Laws.RecordForm.tst (r : Rec) : Statement (.tst r) := ofForm 0xE2 r rfl (by decide) (fun h => by
    have k : (!r.flags.getLsbD 0) = true := h
    rw [storeForm]; simp_all)
theorem Sys2Proof.Laws.RecordForm.tstTok (r : Rec) : Statement (.tstTok r) := ofForm 0xE2 r rfl (by decide) (fun h => by
    have k : r.flags.getLsbD 0 = true := h
    rw [storeForm]; simp_all)
theorem Sys2Proof.Laws.RecordForm.tzero (r : Rec) : Statement (.tzero r) := ofForm 0xE3 r rfl (by decide) (fun _ => rfl)
theorem Sys2Proof.Laws.RecordForm.tmov (r : Rec) : Statement (.tmov r) := ofForm 0xE4 r rfl (by decide) (fun _ => rfl)
theorem Sys2Proof.Laws.RecordForm.ttrn (r : Rec) : Statement (.ttrn r) := ofForm 0xE5 r rfl (by decide) (fun _ => rfl)
theorem Sys2Proof.Laws.RecordForm.zld (r : Rec) : Statement (.zld r) := ofForm 0xE6 r rfl (by decide) (fun _ => rfl)
theorem Sys2Proof.Laws.RecordForm.zst (r : Rec) : Statement (.zst r) := ofForm 0xE7 r rfl (by decide) (fun _ => rfl)
theorem Sys2Proof.Laws.RecordForm.zzero (r : Rec) : Statement (.zzero r) := ofForm 0xE8 r rfl (by decide) (fun _ => rfl)
theorem Sys2Proof.Laws.RecordForm.zcvt (r : Rec) : Statement (.zcvt r) := ofForm 0xE9 r rfl (by decide) (fun _ => rfl)
theorem Sys2Proof.Laws.RecordForm.mop (r : Rec) : Statement (.mop r) := ofForm 0xEA r rfl (by decide) (fun _ => rfl)
theorem Sys2Proof.Laws.RecordForm.mseq (r : Rec) : Statement (.mseq r) := ofForm 0xEB r rfl (by decide) (fun _ => rfl)
theorem Sys2Proof.Laws.RecordForm.mpair (r : Rec) : Statement (.mpair r) := ofForm 0xEC r rfl (by decide) (fun _ => rfl)
theorem Sys2Proof.Laws.RecordForm.cvt (r : Rec) : Statement (.cvt r) := ofForm 0xF0 r rfl (by decide) (fun _ => rfl)
theorem Sys2Proof.Laws.RecordForm.clip (r : Rec) : Statement (.clip r) := ofForm 0xF1 r rfl (by decide) (fun _ => rfl)
theorem Sys2Proof.Laws.RecordForm.trap (r : Rec) : Statement (.trap r) := ofForm 0xF2 r rfl (by decide) (fun _ => rfl)
theorem Sys2Proof.Laws.RecordForm.brk (r : Rec) : Statement (.brk r) := ofForm 0xF3 r rfl (by decide) (fun _ => rfl)
theorem Sys2Proof.Laws.RecordForm.sysrd (r : Rec) : Statement (.sysrd r) := ofForm 0xF4 r rfl (by decide) (fun _ => rfl)
theorem Sys2Proof.Laws.RecordForm.syswr (r : Rec) : Statement (.syswr r) := ofForm 0xF5 r rfl (by decide) (fun _ => rfl)
theorem Sys2Proof.Laws.RecordForm.time (r : Rec) : Statement (.time r) := ofForm 0xF6 r rfl (by decide) (fun _ => rfl)
theorem Sys2Proof.Laws.RecordForm.perf (r : Rec) : Statement (.perf r) := ofForm 0xF7 r rfl (by decide) (fun _ => rfl)
theorem Sys2Proof.Laws.RecordForm.feat (r : Rec) : Statement (.feat r) := ofForm 0xF8 r rfl (by decide) (fun _ => rfl)
theorem Sys2Proof.Laws.RecordForm.drain (r : Rec) : Statement (.drain r) := ofForm 0xF9 r rfl (by decide) (fun _ => rfl)
theorem Sys2Proof.Laws.RecordForm.mma (t : Ctl) : Statement (.mma t) := noRecord rfl
theorem Sys2Proof.Laws.RecordForm.mmap (t : Ctl) : Statement (.mmap t) := noRecord rfl
theorem Sys2Proof.Laws.RecordForm.configWrite (addr : BitVec 13) (fld : BitVec 3) (val : Half) : Statement (.configWrite addr fld val) := noRecord rfl
theorem Sys2Proof.Laws.RecordForm.beginStream (val : Half) : Statement (.beginStream val) := noRecord rfl
theorem Sys2Proof.Laws.RecordForm.patbegin (val : Half) : Statement (.patbegin val) := noRecord rfl
theorem Sys2Proof.Laws.RecordForm.recta (val : Half) : Statement (.recta val) := noRecord rfl
theorem Sys2Proof.Laws.RecordForm.rectb (val : Half) : Statement (.rectb val) := noRecord rfl
theorem Sys2Proof.Laws.RecordForm.patend (val : Half) : Statement (.patend val) := noRecord rfl
theorem Sys2Proof.Laws.RecordForm.endStream (val : Half) : Statement (.endStream val) := noRecord rfl
theorem Sys2Proof.Laws.RecordForm.chklo (val : Half) : Statement (.chklo val) := noRecord rfl
theorem Sys2Proof.Laws.RecordForm.chkhi (val : Half) : Statement (.chkhi val) := noRecord rfl
theorem Sys2Proof.Laws.RecordForm.ingressRecord (cluster node : Nat) (value wtag : Word) : Statement (.ingressRecord cluster node value wtag) := noRecord rfl
theorem Sys2Proof.Laws.RecordForm.apertureSeal (q : Nat) : Statement (.apertureSeal q) := noRecord rfl
theorem Sys2Proof.Laws.RecordForm.launch (l : LaunchPkt) : Statement (.launch l) := noRecord rfl
theorem Sys2Proof.Laws.RecordForm.wait (q : Byte) (seq : Dword) : Statement (.wait q seq) := noRecord rfl
theorem Sys2Proof.Laws.RecordForm.waitf (addr val : Dword) : Statement (.waitf addr val) := noRecord rfl
theorem Sys2Proof.Laws.RecordForm.signal (addr val : Dword) : Statement (.signal addr val) := noRecord rfl
theorem Sys2Proof.Laws.RecordForm.load (obj size result : Dword) : Statement (.load obj size result) := noRecord rfl
theorem Sys2Proof.Laws.RecordForm.loadPlace (rect : Half) (obj size result : Dword) : Statement (.loadPlace rect obj size result) := noRecord rfl
theorem Sys2Proof.Laws.RecordForm.unload (handle : Word) : Statement (.unload handle) := noRecord rfl
theorem Sys2Proof.Laws.RecordForm.freeze (rect : Half) (list : Dword) : Statement (.freeze rect list) := noRecord rfl
theorem Sys2Proof.Laws.RecordForm.resume (list : Dword) : Statement (.resume list) := noRecord rfl
theorem Sys2Proof.Laws.RecordForm.drainPacket (rect : Half) (list : Dword) (dtime : Word) : Statement (.drainPacket rect list dtime) := noRecord rfl
theorem Sys2Proof.Laws.RecordForm.kill (q : Byte) : Statement (.kill q) := noRecord rfl
theorem Sys2Proof.Laws.RecordForm.retry (cluster : Byte) (station : Half) : Statement (.retry cluster station) := noRecord rfl
theorem Sys2Proof.Laws.RecordForm.release (q : Byte) : Statement (.release q) := noRecord rfl
theorem Sys2Proof.Laws.RecordForm.tlbinv (va size root : Dword) : Statement (.tlbinv va size root) := noRecord rfl
theorem Sys2Proof.Laws.RecordForm.continuePkt (q : Byte) (handle : Word) : Statement (.continuePkt q handle) := noRecord rfl
theorem Sys2Proof.Laws.RecordForm.evheadWrite (q : Nat) (val : Word) : Statement (.evheadWrite q val) := noRecord rfl
theorem Sys2Proof.Laws.RecordForm.hintWrite (q off : Nat) (data : List Byte) : Statement (.hintWrite q off data) := noRecord rfl
theorem Sys2Proof.Laws.RecordForm.qctlWrite (q : Nat) (val : Word) : Statement (.qctlWrite q val) := noRecord rfl
theorem Sys2Proof.Laws.RecordForm.egconsWrite (val : Word) : Statement (.egconsWrite val) := noRecord rfl
theorem Sys2Proof.Laws.RecordForm.fpprodWrite (val : Word) : Statement (.fpprodWrite val) := noRecord rfl
theorem Sys2Proof.Laws.RecordForm.svprodWrite (val : Word) : Statement (.svprodWrite val) := noRecord rfl
theorem Sys2Proof.Laws.RecordForm.registerWrite (off : Nat) (data : List Byte) : Statement (.registerWrite off data) := noRecord rfl
theorem Sys2Proof.Laws.RecordForm.handoverGo (val : Word) : Statement (.handoverGo val) := noRecord rfl
theorem Sys2Proof.Laws.RecordForm.handoverEnd (val : Word) : Statement (.handoverEnd val) := noRecord rfl
theorem Sys2Proof.Laws.RecordForm.rcvctlGo (val : Word) : Statement (.rcvctlGo val) := noRecord rfl
theorem Sys2Proof.Laws.RecordForm.readpwr (payload : List Byte) : Statement (.readpwr payload) := noRecord rfl
theorem Sys2Proof.Laws.RecordForm.readlog (payload : List Byte) : Statement (.readlog payload) := noRecord rfl
theorem Sys2Proof.Laws.RecordForm.stage (payload : List Byte) : Statement (.stage payload) := noRecord rfl
theorem Sys2Proof.Laws.RecordForm.commit (payload : List Byte) : Statement (.commit payload) := noRecord rfl
theorem Sys2Proof.Laws.RecordForm.setkey (payload : List Byte) : Statement (.setkey payload) := noRecord rfl
theorem Sys2Proof.Laws.RecordForm.quote (payload : List Byte) : Statement (.quote payload) := noRecord rfl
theorem Sys2Proof.Laws.RecordForm.readquote (payload : List Byte) : Statement (.readquote payload) := noRecord rfl
theorem Sys2Proof.Laws.RecordForm.status (payload : List Byte) : Statement (.status payload) := noRecord rfl
theorem Sys2Proof.Laws.RecordForm.mgmtReset (payload : List Byte) : Statement (.mgmtReset payload) := noRecord rfl
theorem Sys2Proof.Laws.RecordForm.readkeys (payload : List Byte) : Statement (.readkeys payload) := noRecord rfl
theorem Sys2Proof.Laws.RecordForm.unknownMgmtCode (code : Byte) : Statement (.unknownMgmtCode code) := noRecord rfl
theorem Sys2Proof.Laws.RecordForm.bypass (ir : Byte) : Statement (.bypass ir) := noRecord rfl
theorem Sys2Proof.Laws.RecordForm.mmaComplete : Statement .mmaComplete := noRecord rfl
theorem Sys2Proof.Laws.RecordForm.mmapPartnerArrival : Statement .mmapPartnerArrival := noRecord rfl
theorem Sys2Proof.Laws.RecordForm.moStreamFault : Statement .moStreamFault := noRecord rfl
theorem Sys2Proof.Laws.RecordForm.mseqStep : Statement .mseqStep := noRecord rfl
theorem Sys2Proof.Laws.RecordForm.registerOpBegin : Statement .registerOpBegin := noRecord rfl
theorem Sys2Proof.Laws.RecordForm.tileWriteComplete : Statement .tileWriteComplete := noRecord rfl
theorem Sys2Proof.Laws.RecordForm.tokenArrival : Statement .tokenArrival := noRecord rfl
theorem Sys2Proof.Laws.RecordForm.overflowSlotFreed : Statement .overflowSlotFreed := noRecord rfl
theorem Sys2Proof.Laws.RecordForm.creditReturn : Statement .creditReturn := noRecord rfl
theorem Sys2Proof.Laws.RecordForm.arbiterWeightUpdate : Statement .arbiterWeightUpdate := noRecord rfl
theorem Sys2Proof.Laws.RecordForm.deadlockProbeSend : Statement .deadlockProbeSend := noRecord rfl
theorem Sys2Proof.Laws.RecordForm.deadlockProbeArrival : Statement .deadlockProbeArrival := noRecord rfl
theorem Sys2Proof.Laws.RecordForm.exportSend : Statement .exportSend := noRecord rfl
theorem Sys2Proof.Laws.RecordForm.exportArrival : Statement .exportArrival := noRecord rfl
theorem Sys2Proof.Laws.RecordForm.exportAck : Statement .exportAck := noRecord rfl
theorem Sys2Proof.Laws.RecordForm.waveCloseQuiescence : Statement .waveCloseQuiescence := noRecord rfl
theorem Sys2Proof.Laws.RecordForm.contextComplete : Statement .contextComplete := noRecord rfl
theorem Sys2Proof.Laws.RecordForm.migrationSelect : Statement .migrationSelect := noRecord rfl
theorem Sys2Proof.Laws.RecordForm.stubRelease : Statement .stubRelease := noRecord rfl
theorem Sys2Proof.Laws.RecordForm.streamCutShort : Statement .streamCutShort := noRecord rfl
theorem Sys2Proof.Laws.RecordForm.configSweep : Statement .configSweep := noRecord rfl
theorem Sys2Proof.Laws.RecordForm.seedInjection : Statement .seedInjection := noRecord rfl
theorem Sys2Proof.Laws.RecordForm.wsbArrival : Statement .wsbArrival := noRecord rfl
theorem Sys2Proof.Laws.RecordForm.memoryReply : Statement .memoryReply := noRecord rfl
theorem Sys2Proof.Laws.RecordForm.pageWalk : Statement .pageWalk := noRecord rfl
theorem Sys2Proof.Laws.RecordForm.demandPageService : Statement .demandPageService := noRecord rfl
theorem Sys2Proof.Laws.RecordForm.vaultAccess : Statement .vaultAccess := noRecord rfl
theorem Sys2Proof.Laws.RecordForm.atomicAtHome : Statement .atomicAtHome := noRecord rfl
theorem Sys2Proof.Laws.RecordForm.rds : Statement .rds := noRecord rfl
theorem Sys2Proof.Laws.RecordForm.rdx : Statement .rdx := noRecord rfl
theorem Sys2Proof.Laws.RecordForm.upg : Statement .upg := noRecord rfl
theorem Sys2Proof.Laws.RecordForm.evs : Statement .evs := noRecord rfl
theorem Sys2Proof.Laws.RecordForm.evd : Statement .evd := noRecord rfl
theorem Sys2Proof.Laws.RecordForm.data : Statement .data := noRecord rfl
theorem Sys2Proof.Laws.RecordForm.fwds : Statement .fwds := noRecord rfl
theorem Sys2Proof.Laws.RecordForm.fwdx : Statement .fwdx := noRecord rfl
theorem Sys2Proof.Laws.RecordForm.inv : Statement .inv := noRecord rfl
theorem Sys2Proof.Laws.RecordForm.iack : Statement .iack := noRecord rfl
theorem Sys2Proof.Laws.RecordForm.eack : Statement .eack := noRecord rfl
theorem Sys2Proof.Laws.RecordForm.hostCoherentRequest : Statement .hostCoherentRequest := noRecord rfl
theorem Sys2Proof.Laws.RecordForm.softErrorScrub : Statement .softErrorScrub := noRecord rfl
theorem Sys2Proof.Laws.RecordForm.quarryHomeRequest : Statement .quarryHomeRequest := noRecord rfl
theorem Sys2Proof.Laws.RecordForm.quarryRefill : Statement .quarryRefill := noRecord rfl
theorem Sys2Proof.Laws.RecordForm.quarryRecall : Statement .quarryRecall := noRecord rfl
theorem Sys2Proof.Laws.RecordForm.quarryRecallAnswer : Statement .quarryRecallAnswer := noRecord rfl
theorem Sys2Proof.Laws.RecordForm.counterLineWrite : Statement .counterLineWrite := noRecord rfl
theorem Sys2Proof.Laws.RecordForm.copyTrigger : Statement .copyTrigger := noRecord rfl
theorem Sys2Proof.Laws.RecordForm.copyFault : Statement .copyFault := noRecord rfl
theorem Sys2Proof.Laws.RecordForm.copyComplete : Statement .copyComplete := noRecord rfl
theorem Sys2Proof.Laws.RecordForm.channelArrival : Statement .channelArrival := noRecord rfl
theorem Sys2Proof.Laws.RecordForm.remoteCopyElement : Statement .remoteCopyElement := noRecord rfl
theorem Sys2Proof.Laws.RecordForm.joinPartArrival : Statement .joinPartArrival := noRecord rfl
theorem Sys2Proof.Laws.RecordForm.xsendRecordArrival : Statement .xsendRecordArrival := noRecord rfl
theorem Sys2Proof.Laws.RecordForm.spanFlitReplay : Statement .spanFlitReplay := noRecord rfl
theorem Sys2Proof.Laws.RecordForm.spanPortDown : Statement .spanPortDown := noRecord rfl
theorem Sys2Proof.Laws.RecordForm.spanRouteTimeout : Statement .spanRouteTimeout := noRecord rfl
theorem Sys2Proof.Laws.RecordForm.launchWindowSeal : Statement .launchWindowSeal := noRecord rfl
theorem Sys2Proof.Laws.RecordForm.dispatchSelect : Statement .dispatchSelect := noRecord rfl
theorem Sys2Proof.Laws.RecordForm.waitfFlagRecheck : Statement .waitfFlagRecheck := noRecord rfl
theorem Sys2Proof.Laws.RecordForm.freezeSave : Statement .freezeSave := noRecord rfl
theorem Sys2Proof.Laws.RecordForm.drainSweepComplete : Statement .drainSweepComplete := noRecord rfl
theorem Sys2Proof.Laws.RecordForm.drainTimeout : Statement .drainTimeout := noRecord rfl
theorem Sys2Proof.Laws.RecordForm.watchdog : Statement .watchdog := noRecord rfl
theorem Sys2Proof.Laws.RecordForm.preemptFreeze : Statement .preemptFreeze := noRecord rfl
theorem Sys2Proof.Laws.RecordForm.preemptResume : Statement .preemptResume := noRecord rfl
theorem Sys2Proof.Laws.RecordForm.ferryStart : Statement .ferryStart := noRecord rfl
theorem Sys2Proof.Laws.RecordForm.readSetConflict : Statement .readSetConflict := noRecord rfl
theorem Sys2Proof.Laws.RecordForm.speculationTimeout : Statement .speculationTimeout := noRecord rfl
theorem Sys2Proof.Laws.RecordForm.retentionSleep : Statement .retentionSleep := noRecord rfl
theorem Sys2Proof.Laws.RecordForm.handoverClear : Statement .handoverClear := noRecord rfl
theorem Sys2Proof.Laws.RecordForm.handoverPageArrival : Statement .handoverPageArrival := noRecord rfl
theorem Sys2Proof.Laws.RecordForm.powerSample : Statement .powerSample := noRecord rfl
theorem Sys2Proof.Laws.RecordForm.powerOn : Statement .powerOn := noRecord rfl
theorem Sys2Proof.Laws.RecordForm.deviceReset : Statement .deviceReset := noRecord rfl
theorem Sys2Proof.Laws.RecordForm.stagedImageCheck : Statement .stagedImageCheck := noRecord rfl
theorem Sys2Proof.Laws.RecordForm.idcode : Statement .idcode := noRecord rfl
theorem Sys2Proof.Laws.RecordForm.samplePreload : Statement .samplePreload := noRecord rfl
theorem Sys2Proof.Laws.RecordForm.extest : Statement .extest := noRecord rfl
theorem Sys2Proof.Laws.RecordForm.spanAccessRequest : Statement .spanAccessRequest := noRecord rfl
theorem Sys2Proof.Laws.RecordForm.powerFault : Statement .powerFault := noRecord rfl
theorem Sys2Proof.Laws.RecordForm.spanPortUp : Statement .spanPortUp := noRecord rfl
end

