-- ==== Sys2Proof/Laws/Table.lean ====
section
/-! SUPPORT. The laws of tables: reading after a set, and the canonical form that set and erase keep. -/

namespace Sys2Proof

variable {α : Type}

@[simp] theorem Table.get?_nil (n : Nat) : Table.get? ([] : Table α) n = none := rfl

/-- An entry that was set reads as it was set. -/
@[simp] theorem Table.get?_set_self (t : Table α) (n : Nat) (v : α) : (Table.set t n v).get? n = some v := by
  induction t with
  | nil => simp [Table.set, Table.get?]
  | cons e rest ih =>
    obtain ⟨k, w⟩ := e
    simp only [Table.set]
    split
    · simp [Table.get?]
    · split
      · simp [Table.get?]
      · next h₁ h₂ => simp [Table.get?, Ne.symm h₂, ih]

/-- An entry that was not set reads as before. -/
theorem Table.get?_set_ne (t : Table α) {n m : Nat} (v : α) (h : m ≠ n) : (Table.set t n v).get? m = t.get? m := by
  induction t with
  | nil => simp [Table.set, Table.get?, Ne.symm h]
  | cons e rest ih =>
    obtain ⟨k, w⟩ := e
    simp only [Table.set]
    split
    · simp [Table.get?, Ne.symm h]
    · split
      · next h₂ => subst h₂; simp [Table.get?, Ne.symm h]
      · simp [Table.get?, ih]

@[simp] theorem Table.getD_set_self (t : Table α) (n : Nat) (v d : α) : (Table.set t n v).getD n d = v := by
  simp [Table.getD]

theorem Table.getD_set_ne (t : Table α) {n m : Nat} (v d : α) (h : m ≠ n) :
    (Table.set t n v).getD m d = t.getD m d := by
  simp [Table.getD, Table.get?_set_ne t v h]

/-- A table whose values are changed one by one reads as the changed value. -/
theorem Table.get?_map (t : Table α) {β : Type} (f : Nat × α → β) (n : Nat) :
    Table.get? (t.map (fun e => (e.1, f e))) n = (t.get? n).map (fun v => f (n, v)) := by
  induction t with
  | nil => rfl
  | cons e rest ih =>
    obtain ⟨k, w⟩ := e
    simp only [List.map_cons, Table.get?]
    split
    · next h => subst h; rfl
    · exact ih

/-- The canonical form of a table, as a property of its first entry and the rest. -/
theorem Table.wf_cons (k : Nat) (w : α) (rest : Table α) :
    Table.wf ((k, w) :: rest) = true ↔ (∀ e, rest.head? = some e → k < e.1) ∧ Table.wf rest = true := by
  cases rest with
  | nil => simp [Table.wf]
  | cons e tail => obtain ⟨b, x⟩ := e; simp [Table.wf]

theorem Table.head?_set (t : Table α) (n : Nat) (v : α) (e : Nat × α) (h : (Table.set t n v).head? = some e) :
    e.1 = n ∨ ∃ x, t.head? = some x ∧ x.1 = e.1 := by
  cases t with
  | nil => simp [Table.set] at h; subst h; exact .inl rfl
  | cons x rest =>
    obtain ⟨k, w⟩ := x
    simp only [Table.set] at h
    split at h
    · simp at h; subst h; exact .inl rfl
    · split at h
      · simp at h; subst h; exact .inl rfl
      · simp at h; subst h; exact .inr ⟨_, rfl, rfl⟩

/-- Setting an entry keeps the keys in rising order. -/
theorem Table.wf_set (t : Table α) (n : Nat) (v : α) (h : Table.wf t = true) : Table.wf (Table.set t n v) = true := by
  induction t with
  | nil => rfl
  | cons e rest ih =>
    obtain ⟨k, w⟩ := e
    have hc := (Table.wf_cons k w rest).mp h
    simp only [Table.set]
    split
    · next hn => exact (Table.wf_cons n v _).mpr ⟨fun e he => by simp at he; subst he; exact hn, h⟩
    · split
      · next _ hn => subst hn; exact (Table.wf_cons n v rest).mpr hc
      · next hlt hne =>
        refine (Table.wf_cons k w _).mpr ⟨fun e he => ?_, ih hc.2⟩
        rcases Table.head?_set rest n v e he with h1 | ⟨x, h1, h2⟩
        · omega
        · have := hc.1 x h1; omega

end Sys2Proof
end

