-- ==== Sys2Proof/Laws/State.lean ====
section
/-! SUPPORT. The laws of the state: what each update leaves of each field, and what reads what it wrote. -/

namespace Sys2Proof.Machine

open Sys2Proof

variable (s : State) (c : Nat) (f : Region → Region)

/-! ## Reading after an update -/

@[simp] theorem State.updRegion_region : (s.updRegion c f).region c = f (s.region c) := by
  simp [State.updRegion, State.region]

theorem State.updRegion_region_ne {d : Nat} (h : d ≠ c) : (s.updRegion c f).region d = s.region d := by
  simp [State.updRegion, State.region, Table.getD_set_ne _ _ _ h]

@[simp] theorem State.updQueue_queue (q : Nat) (g : Queue → Queue) : (s.updQueue q g).queue q = g (s.queue q) := by
  simp [State.updQueue, State.queue]

theorem State.updQueue_queue_ne {p q : Nat} (g : Queue → Queue) (h : p ≠ q) : (s.updQueue q g).queue p = s.queue p := by
  simp [State.updQueue, State.queue, Table.getD_set_ne _ _ _ h]

@[simp] theorem State.updFerry_ferryOf (q : Nat) (g : Ferry → Ferry) : (s.updFerry q g).ferryOf q = g (s.ferryOf q) := by
  simp [State.updFerry, State.ferryOf]

theorem State.updFerry_ferryOf_ne {p q : Nat} (g : Ferry → Ferry) (h : p ≠ q) :
    (s.updFerry q g).ferryOf p = s.ferryOf p := by
  simp [State.updFerry, State.ferryOf, Table.getD_set_ne _ _ _ h]

/-- What is due stays due, once. -/
theorem State.mem_dueOnce (a : Activity) : a ∈ (s.dueOnce a).agenda := by
  unfold State.dueOnce
  split
  · next h => simpa using h
  · simp [State.due]

/-- An activity that was due is still due. -/
theorem State.dueOnce_keeps {a b : Activity} (h : a ∈ s.agenda) : a ∈ (s.dueOnce b).agenda := by
  unfold State.dueOnce
  split
  · exact h
  · simp [State.due, h]

/-! ## updRegion -/

@[simp] theorem State.updRegion_ticks : (s.updRegion c f).ticks = s.ticks := rfl
@[simp] theorem State.updRegion_nextId : (s.updRegion c f).nextId = s.nextId := rfl
@[simp] theorem State.updRegion_picks : (s.updRegion c f).picks = s.picks := rfl
@[simp] theorem State.updRegion_agenda : (s.updRegion c f).agenda = s.agenda := rfl
@[simp] theorem State.updRegion_cur : (s.updRegion c f).cur = s.cur := rfl
@[simp] theorem State.updRegion_cycle : (s.updRegion c f).cycle = s.cycle := rfl
@[simp] theorem State.updRegion_refCount : (s.updRegion c f).refCount = s.refCount := rfl
@[simp] theorem State.updRegion_fclk : (s.updRegion c f).fclk = s.fclk := rfl
@[simp] theorem State.updRegion_mem : (s.updRegion c f).mem = s.mem := rfl
@[simp] theorem State.updRegion_poisoned : (s.updRegion c f).poisoned = s.poisoned := rfl
@[simp] theorem State.updRegion_errors : (s.updRegion c f).errors = s.errors := rfl
@[simp] theorem State.updRegion_dies : (s.updRegion c f).dies = s.dies := rfl
@[simp] theorem State.updRegion_dir : (s.updRegion c f).dir = s.dir := rfl
@[simp] theorem State.updRegion_reqs : (s.updRegion c f).reqs = s.reqs := rfl
@[simp] theorem State.updRegion_rids : (s.updRegion c f).rids = s.rids := rfl
@[simp] theorem State.updRegion_quarry : (s.updRegion c f).quarry = s.quarry := rfl
@[simp] theorem State.updRegion_pwaits : (s.updRegion c f).pwaits = s.pwaits := rfl
@[simp] theorem State.updRegion_regs : (s.updRegion c f).regs = s.regs := rfl
@[simp] theorem State.updRegion_ingressAp : (s.updRegion c f).ingressAp = s.ingressAp := rfl
@[simp] theorem State.updRegion_queues : (s.updRegion c f).queues = s.queues := rfl
@[simp] theorem State.updRegion_lastQueue : (s.updRegion c f).lastQueue = s.lastQueue := rfl
@[simp] theorem State.updRegion_contexts : (s.updRegion c f).contexts = s.contexts := rfl
@[simp] theorem State.updRegion_launches : (s.updRegion c f).launches = s.launches := rfl
@[simp] theorem State.updRegion_objects : (s.updRegion c f).objects = s.objects := rfl
@[simp] theorem State.updRegion_routines : (s.updRegion c f).routines = s.routines := rfl
@[simp] theorem State.updRegion_jobs : (s.updRegion c f).jobs = s.jobs := rfl
@[simp] theorem State.updRegion_ferry : (s.updRegion c f).ferry = s.ferry := rfl
@[simp] theorem State.updRegion_saves : (s.updRegion c f).saves = s.saves := rfl
@[simp] theorem State.updRegion_freezes : (s.updRegion c f).freezes = s.freezes := rfl
@[simp] theorem State.updRegion_channels : (s.updRegion c f).channels = s.channels := rfl
@[simp] theorem State.updRegion_spanDown : (s.updRegion c f).spanDown = s.spanDown := rfl
@[simp] theorem State.updRegion_spanReqs : (s.updRegion c f).spanReqs = s.spanReqs := rfl
@[simp] theorem State.updRegion_spanOut : (s.updRegion c f).spanOut = s.spanOut := rfl
@[simp] theorem State.updRegion_lentPage : (s.updRegion c f).lentPage = s.lentPage := rfl
@[simp] theorem State.updRegion_lentTo : (s.updRegion c f).lentTo = s.lentTo := rfl
@[simp] theorem State.updRegion_farLines : (s.updRegion c f).farLines = s.farLines := rfl
@[simp] theorem State.updRegion_outbox : (s.updRegion c f).outbox = s.outbox := rfl
@[simp] theorem State.updRegion_toll : (s.updRegion c f).toll = s.toll := rfl
@[simp] theorem State.updRegion_scan : (s.updRegion c f).scan = s.scan := rfl

/-! ## due -/

@[simp] theorem State.due_ticks (a : Activity) : (s.due a).ticks = s.ticks := rfl
@[simp] theorem State.due_nextId (a : Activity) : (s.due a).nextId = s.nextId := rfl
@[simp] theorem State.due_picks (a : Activity) : (s.due a).picks = s.picks := rfl
@[simp] theorem State.due_cur (a : Activity) : (s.due a).cur = s.cur := rfl
@[simp] theorem State.due_cycle (a : Activity) : (s.due a).cycle = s.cycle := rfl
@[simp] theorem State.due_refCount (a : Activity) : (s.due a).refCount = s.refCount := rfl
@[simp] theorem State.due_fclk (a : Activity) : (s.due a).fclk = s.fclk := rfl
@[simp] theorem State.due_mem (a : Activity) : (s.due a).mem = s.mem := rfl
@[simp] theorem State.due_poisoned (a : Activity) : (s.due a).poisoned = s.poisoned := rfl
@[simp] theorem State.due_errors (a : Activity) : (s.due a).errors = s.errors := rfl
@[simp] theorem State.due_regions (a : Activity) : (s.due a).regions = s.regions := rfl
@[simp] theorem State.due_dies (a : Activity) : (s.due a).dies = s.dies := rfl
@[simp] theorem State.due_dir (a : Activity) : (s.due a).dir = s.dir := rfl
@[simp] theorem State.due_reqs (a : Activity) : (s.due a).reqs = s.reqs := rfl
@[simp] theorem State.due_rids (a : Activity) : (s.due a).rids = s.rids := rfl
@[simp] theorem State.due_quarry (a : Activity) : (s.due a).quarry = s.quarry := rfl
@[simp] theorem State.due_pwaits (a : Activity) : (s.due a).pwaits = s.pwaits := rfl
@[simp] theorem State.due_regs (a : Activity) : (s.due a).regs = s.regs := rfl
@[simp] theorem State.due_ingressAp (a : Activity) : (s.due a).ingressAp = s.ingressAp := rfl
@[simp] theorem State.due_queues (a : Activity) : (s.due a).queues = s.queues := rfl
@[simp] theorem State.due_lastQueue (a : Activity) : (s.due a).lastQueue = s.lastQueue := rfl
@[simp] theorem State.due_contexts (a : Activity) : (s.due a).contexts = s.contexts := rfl
@[simp] theorem State.due_launches (a : Activity) : (s.due a).launches = s.launches := rfl
@[simp] theorem State.due_objects (a : Activity) : (s.due a).objects = s.objects := rfl
@[simp] theorem State.due_routines (a : Activity) : (s.due a).routines = s.routines := rfl
@[simp] theorem State.due_jobs (a : Activity) : (s.due a).jobs = s.jobs := rfl
@[simp] theorem State.due_ferry (a : Activity) : (s.due a).ferry = s.ferry := rfl
@[simp] theorem State.due_saves (a : Activity) : (s.due a).saves = s.saves := rfl
@[simp] theorem State.due_freezes (a : Activity) : (s.due a).freezes = s.freezes := rfl
@[simp] theorem State.due_channels (a : Activity) : (s.due a).channels = s.channels := rfl
@[simp] theorem State.due_spanDown (a : Activity) : (s.due a).spanDown = s.spanDown := rfl
@[simp] theorem State.due_spanReqs (a : Activity) : (s.due a).spanReqs = s.spanReqs := rfl
@[simp] theorem State.due_spanOut (a : Activity) : (s.due a).spanOut = s.spanOut := rfl
@[simp] theorem State.due_lentPage (a : Activity) : (s.due a).lentPage = s.lentPage := rfl
@[simp] theorem State.due_lentTo (a : Activity) : (s.due a).lentTo = s.lentTo := rfl
@[simp] theorem State.due_farLines (a : Activity) : (s.due a).farLines = s.farLines := rfl
@[simp] theorem State.due_outbox (a : Activity) : (s.due a).outbox = s.outbox := rfl
@[simp] theorem State.due_toll (a : Activity) : (s.due a).toll = s.toll := rfl
@[simp] theorem State.due_scan (a : Activity) : (s.due a).scan = s.scan := rfl

/-! ## dueEvent -/

@[simp] theorem State.dueEvent_ticks (i : Instr) (x : Site) : (s.dueEvent i x).ticks = s.ticks := rfl
@[simp] theorem State.dueEvent_nextId (i : Instr) (x : Site) : (s.dueEvent i x).nextId = s.nextId := rfl
@[simp] theorem State.dueEvent_picks (i : Instr) (x : Site) : (s.dueEvent i x).picks = s.picks := rfl
@[simp] theorem State.dueEvent_cur (i : Instr) (x : Site) : (s.dueEvent i x).cur = s.cur := rfl
@[simp] theorem State.dueEvent_cycle (i : Instr) (x : Site) : (s.dueEvent i x).cycle = s.cycle := rfl
@[simp] theorem State.dueEvent_refCount (i : Instr) (x : Site) : (s.dueEvent i x).refCount = s.refCount := rfl
@[simp] theorem State.dueEvent_fclk (i : Instr) (x : Site) : (s.dueEvent i x).fclk = s.fclk := rfl
@[simp] theorem State.dueEvent_mem (i : Instr) (x : Site) : (s.dueEvent i x).mem = s.mem := rfl
@[simp] theorem State.dueEvent_poisoned (i : Instr) (x : Site) : (s.dueEvent i x).poisoned = s.poisoned := rfl
@[simp] theorem State.dueEvent_errors (i : Instr) (x : Site) : (s.dueEvent i x).errors = s.errors := rfl
@[simp] theorem State.dueEvent_regions (i : Instr) (x : Site) : (s.dueEvent i x).regions = s.regions := rfl
@[simp] theorem State.dueEvent_dies (i : Instr) (x : Site) : (s.dueEvent i x).dies = s.dies := rfl
@[simp] theorem State.dueEvent_dir (i : Instr) (x : Site) : (s.dueEvent i x).dir = s.dir := rfl
@[simp] theorem State.dueEvent_reqs (i : Instr) (x : Site) : (s.dueEvent i x).reqs = s.reqs := rfl
@[simp] theorem State.dueEvent_rids (i : Instr) (x : Site) : (s.dueEvent i x).rids = s.rids := rfl
@[simp] theorem State.dueEvent_quarry (i : Instr) (x : Site) : (s.dueEvent i x).quarry = s.quarry := rfl
@[simp] theorem State.dueEvent_pwaits (i : Instr) (x : Site) : (s.dueEvent i x).pwaits = s.pwaits := rfl
@[simp] theorem State.dueEvent_regs (i : Instr) (x : Site) : (s.dueEvent i x).regs = s.regs := rfl
@[simp] theorem State.dueEvent_ingressAp (i : Instr) (x : Site) : (s.dueEvent i x).ingressAp = s.ingressAp := rfl
@[simp] theorem State.dueEvent_queues (i : Instr) (x : Site) : (s.dueEvent i x).queues = s.queues := rfl
@[simp] theorem State.dueEvent_lastQueue (i : Instr) (x : Site) : (s.dueEvent i x).lastQueue = s.lastQueue := rfl
@[simp] theorem State.dueEvent_contexts (i : Instr) (x : Site) : (s.dueEvent i x).contexts = s.contexts := rfl
@[simp] theorem State.dueEvent_launches (i : Instr) (x : Site) : (s.dueEvent i x).launches = s.launches := rfl
@[simp] theorem State.dueEvent_objects (i : Instr) (x : Site) : (s.dueEvent i x).objects = s.objects := rfl
@[simp] theorem State.dueEvent_routines (i : Instr) (x : Site) : (s.dueEvent i x).routines = s.routines := rfl
@[simp] theorem State.dueEvent_jobs (i : Instr) (x : Site) : (s.dueEvent i x).jobs = s.jobs := rfl
@[simp] theorem State.dueEvent_ferry (i : Instr) (x : Site) : (s.dueEvent i x).ferry = s.ferry := rfl
@[simp] theorem State.dueEvent_saves (i : Instr) (x : Site) : (s.dueEvent i x).saves = s.saves := rfl
@[simp] theorem State.dueEvent_freezes (i : Instr) (x : Site) : (s.dueEvent i x).freezes = s.freezes := rfl
@[simp] theorem State.dueEvent_channels (i : Instr) (x : Site) : (s.dueEvent i x).channels = s.channels := rfl
@[simp] theorem State.dueEvent_spanDown (i : Instr) (x : Site) : (s.dueEvent i x).spanDown = s.spanDown := rfl
@[simp] theorem State.dueEvent_spanReqs (i : Instr) (x : Site) : (s.dueEvent i x).spanReqs = s.spanReqs := rfl
@[simp] theorem State.dueEvent_spanOut (i : Instr) (x : Site) : (s.dueEvent i x).spanOut = s.spanOut := rfl
@[simp] theorem State.dueEvent_lentPage (i : Instr) (x : Site) : (s.dueEvent i x).lentPage = s.lentPage := rfl
@[simp] theorem State.dueEvent_lentTo (i : Instr) (x : Site) : (s.dueEvent i x).lentTo = s.lentTo := rfl
@[simp] theorem State.dueEvent_farLines (i : Instr) (x : Site) : (s.dueEvent i x).farLines = s.farLines := rfl
@[simp] theorem State.dueEvent_outbox (i : Instr) (x : Site) : (s.dueEvent i x).outbox = s.outbox := rfl
@[simp] theorem State.dueEvent_toll (i : Instr) (x : Site) : (s.dueEvent i x).toll = s.toll := rfl
@[simp] theorem State.dueEvent_scan (i : Instr) (x : Site) : (s.dueEvent i x).scan = s.scan := rfl

/-! ## dueNow -/

@[simp] theorem State.dueNow_ticks (i : Instr) (x : Site) : (s.dueNow i x).ticks = s.ticks := rfl
@[simp] theorem State.dueNow_nextId (i : Instr) (x : Site) : (s.dueNow i x).nextId = s.nextId := rfl
@[simp] theorem State.dueNow_cur (i : Instr) (x : Site) : (s.dueNow i x).cur = s.cur := rfl
@[simp] theorem State.dueNow_cycle (i : Instr) (x : Site) : (s.dueNow i x).cycle = s.cycle := rfl
@[simp] theorem State.dueNow_refCount (i : Instr) (x : Site) : (s.dueNow i x).refCount = s.refCount := rfl
@[simp] theorem State.dueNow_fclk (i : Instr) (x : Site) : (s.dueNow i x).fclk = s.fclk := rfl
@[simp] theorem State.dueNow_mem (i : Instr) (x : Site) : (s.dueNow i x).mem = s.mem := rfl
@[simp] theorem State.dueNow_poisoned (i : Instr) (x : Site) : (s.dueNow i x).poisoned = s.poisoned := rfl
@[simp] theorem State.dueNow_errors (i : Instr) (x : Site) : (s.dueNow i x).errors = s.errors := rfl
@[simp] theorem State.dueNow_regions (i : Instr) (x : Site) : (s.dueNow i x).regions = s.regions := rfl
@[simp] theorem State.dueNow_dies (i : Instr) (x : Site) : (s.dueNow i x).dies = s.dies := rfl
@[simp] theorem State.dueNow_dir (i : Instr) (x : Site) : (s.dueNow i x).dir = s.dir := rfl
@[simp] theorem State.dueNow_reqs (i : Instr) (x : Site) : (s.dueNow i x).reqs = s.reqs := rfl
@[simp] theorem State.dueNow_rids (i : Instr) (x : Site) : (s.dueNow i x).rids = s.rids := rfl
@[simp] theorem State.dueNow_quarry (i : Instr) (x : Site) : (s.dueNow i x).quarry = s.quarry := rfl
@[simp] theorem State.dueNow_pwaits (i : Instr) (x : Site) : (s.dueNow i x).pwaits = s.pwaits := rfl
@[simp] theorem State.dueNow_regs (i : Instr) (x : Site) : (s.dueNow i x).regs = s.regs := rfl
@[simp] theorem State.dueNow_ingressAp (i : Instr) (x : Site) : (s.dueNow i x).ingressAp = s.ingressAp := rfl
@[simp] theorem State.dueNow_queues (i : Instr) (x : Site) : (s.dueNow i x).queues = s.queues := rfl
@[simp] theorem State.dueNow_lastQueue (i : Instr) (x : Site) : (s.dueNow i x).lastQueue = s.lastQueue := rfl
@[simp] theorem State.dueNow_contexts (i : Instr) (x : Site) : (s.dueNow i x).contexts = s.contexts := rfl
@[simp] theorem State.dueNow_launches (i : Instr) (x : Site) : (s.dueNow i x).launches = s.launches := rfl
@[simp] theorem State.dueNow_objects (i : Instr) (x : Site) : (s.dueNow i x).objects = s.objects := rfl
@[simp] theorem State.dueNow_routines (i : Instr) (x : Site) : (s.dueNow i x).routines = s.routines := rfl
@[simp] theorem State.dueNow_jobs (i : Instr) (x : Site) : (s.dueNow i x).jobs = s.jobs := rfl
@[simp] theorem State.dueNow_ferry (i : Instr) (x : Site) : (s.dueNow i x).ferry = s.ferry := rfl
@[simp] theorem State.dueNow_saves (i : Instr) (x : Site) : (s.dueNow i x).saves = s.saves := rfl
@[simp] theorem State.dueNow_freezes (i : Instr) (x : Site) : (s.dueNow i x).freezes = s.freezes := rfl
@[simp] theorem State.dueNow_channels (i : Instr) (x : Site) : (s.dueNow i x).channels = s.channels := rfl
@[simp] theorem State.dueNow_spanDown (i : Instr) (x : Site) : (s.dueNow i x).spanDown = s.spanDown := rfl
@[simp] theorem State.dueNow_spanReqs (i : Instr) (x : Site) : (s.dueNow i x).spanReqs = s.spanReqs := rfl
@[simp] theorem State.dueNow_spanOut (i : Instr) (x : Site) : (s.dueNow i x).spanOut = s.spanOut := rfl
@[simp] theorem State.dueNow_lentPage (i : Instr) (x : Site) : (s.dueNow i x).lentPage = s.lentPage := rfl
@[simp] theorem State.dueNow_lentTo (i : Instr) (x : Site) : (s.dueNow i x).lentTo = s.lentTo := rfl
@[simp] theorem State.dueNow_farLines (i : Instr) (x : Site) : (s.dueNow i x).farLines = s.farLines := rfl
@[simp] theorem State.dueNow_outbox (i : Instr) (x : Site) : (s.dueNow i x).outbox = s.outbox := rfl
@[simp] theorem State.dueNow_toll (i : Instr) (x : Site) : (s.dueNow i x).toll = s.toll := rfl
@[simp] theorem State.dueNow_scan (i : Instr) (x : Site) : (s.dueNow i x).scan = s.scan := rfl

/-! ## updQueue -/

@[simp] theorem State.updQueue_ticks (g : Queue → Queue) : (s.updQueue c g).ticks = s.ticks := rfl
@[simp] theorem State.updQueue_nextId (g : Queue → Queue) : (s.updQueue c g).nextId = s.nextId := rfl
@[simp] theorem State.updQueue_picks (g : Queue → Queue) : (s.updQueue c g).picks = s.picks := rfl
@[simp] theorem State.updQueue_agenda (g : Queue → Queue) : (s.updQueue c g).agenda = s.agenda := rfl
@[simp] theorem State.updQueue_cur (g : Queue → Queue) : (s.updQueue c g).cur = s.cur := rfl
@[simp] theorem State.updQueue_cycle (g : Queue → Queue) : (s.updQueue c g).cycle = s.cycle := rfl
@[simp] theorem State.updQueue_refCount (g : Queue → Queue) : (s.updQueue c g).refCount = s.refCount := rfl
@[simp] theorem State.updQueue_fclk (g : Queue → Queue) : (s.updQueue c g).fclk = s.fclk := rfl
@[simp] theorem State.updQueue_mem (g : Queue → Queue) : (s.updQueue c g).mem = s.mem := rfl
@[simp] theorem State.updQueue_poisoned (g : Queue → Queue) : (s.updQueue c g).poisoned = s.poisoned := rfl
@[simp] theorem State.updQueue_errors (g : Queue → Queue) : (s.updQueue c g).errors = s.errors := rfl
@[simp] theorem State.updQueue_regions (g : Queue → Queue) : (s.updQueue c g).regions = s.regions := rfl
@[simp] theorem State.updQueue_dies (g : Queue → Queue) : (s.updQueue c g).dies = s.dies := rfl
@[simp] theorem State.updQueue_dir (g : Queue → Queue) : (s.updQueue c g).dir = s.dir := rfl
@[simp] theorem State.updQueue_reqs (g : Queue → Queue) : (s.updQueue c g).reqs = s.reqs := rfl
@[simp] theorem State.updQueue_rids (g : Queue → Queue) : (s.updQueue c g).rids = s.rids := rfl
@[simp] theorem State.updQueue_quarry (g : Queue → Queue) : (s.updQueue c g).quarry = s.quarry := rfl
@[simp] theorem State.updQueue_pwaits (g : Queue → Queue) : (s.updQueue c g).pwaits = s.pwaits := rfl
@[simp] theorem State.updQueue_regs (g : Queue → Queue) : (s.updQueue c g).regs = s.regs := rfl
@[simp] theorem State.updQueue_ingressAp (g : Queue → Queue) : (s.updQueue c g).ingressAp = s.ingressAp := rfl
@[simp] theorem State.updQueue_lastQueue (g : Queue → Queue) : (s.updQueue c g).lastQueue = s.lastQueue := rfl
@[simp] theorem State.updQueue_contexts (g : Queue → Queue) : (s.updQueue c g).contexts = s.contexts := rfl
@[simp] theorem State.updQueue_launches (g : Queue → Queue) : (s.updQueue c g).launches = s.launches := rfl
@[simp] theorem State.updQueue_objects (g : Queue → Queue) : (s.updQueue c g).objects = s.objects := rfl
@[simp] theorem State.updQueue_routines (g : Queue → Queue) : (s.updQueue c g).routines = s.routines := rfl
@[simp] theorem State.updQueue_jobs (g : Queue → Queue) : (s.updQueue c g).jobs = s.jobs := rfl
@[simp] theorem State.updQueue_ferry (g : Queue → Queue) : (s.updQueue c g).ferry = s.ferry := rfl
@[simp] theorem State.updQueue_saves (g : Queue → Queue) : (s.updQueue c g).saves = s.saves := rfl
@[simp] theorem State.updQueue_freezes (g : Queue → Queue) : (s.updQueue c g).freezes = s.freezes := rfl
@[simp] theorem State.updQueue_channels (g : Queue → Queue) : (s.updQueue c g).channels = s.channels := rfl
@[simp] theorem State.updQueue_spanDown (g : Queue → Queue) : (s.updQueue c g).spanDown = s.spanDown := rfl
@[simp] theorem State.updQueue_spanReqs (g : Queue → Queue) : (s.updQueue c g).spanReqs = s.spanReqs := rfl
@[simp] theorem State.updQueue_spanOut (g : Queue → Queue) : (s.updQueue c g).spanOut = s.spanOut := rfl
@[simp] theorem State.updQueue_lentPage (g : Queue → Queue) : (s.updQueue c g).lentPage = s.lentPage := rfl
@[simp] theorem State.updQueue_lentTo (g : Queue → Queue) : (s.updQueue c g).lentTo = s.lentTo := rfl
@[simp] theorem State.updQueue_farLines (g : Queue → Queue) : (s.updQueue c g).farLines = s.farLines := rfl
@[simp] theorem State.updQueue_outbox (g : Queue → Queue) : (s.updQueue c g).outbox = s.outbox := rfl
@[simp] theorem State.updQueue_toll (g : Queue → Queue) : (s.updQueue c g).toll = s.toll := rfl
@[simp] theorem State.updQueue_scan (g : Queue → Queue) : (s.updQueue c g).scan = s.scan := rfl

/-! ## updFerry -/

@[simp] theorem State.updFerry_ticks (g : Ferry → Ferry) : (s.updFerry c g).ticks = s.ticks := rfl
@[simp] theorem State.updFerry_nextId (g : Ferry → Ferry) : (s.updFerry c g).nextId = s.nextId := rfl
@[simp] theorem State.updFerry_picks (g : Ferry → Ferry) : (s.updFerry c g).picks = s.picks := rfl
@[simp] theorem State.updFerry_agenda (g : Ferry → Ferry) : (s.updFerry c g).agenda = s.agenda := rfl
@[simp] theorem State.updFerry_cur (g : Ferry → Ferry) : (s.updFerry c g).cur = s.cur := rfl
@[simp] theorem State.updFerry_cycle (g : Ferry → Ferry) : (s.updFerry c g).cycle = s.cycle := rfl
@[simp] theorem State.updFerry_refCount (g : Ferry → Ferry) : (s.updFerry c g).refCount = s.refCount := rfl
@[simp] theorem State.updFerry_fclk (g : Ferry → Ferry) : (s.updFerry c g).fclk = s.fclk := rfl
@[simp] theorem State.updFerry_mem (g : Ferry → Ferry) : (s.updFerry c g).mem = s.mem := rfl
@[simp] theorem State.updFerry_poisoned (g : Ferry → Ferry) : (s.updFerry c g).poisoned = s.poisoned := rfl
@[simp] theorem State.updFerry_errors (g : Ferry → Ferry) : (s.updFerry c g).errors = s.errors := rfl
@[simp] theorem State.updFerry_regions (g : Ferry → Ferry) : (s.updFerry c g).regions = s.regions := rfl
@[simp] theorem State.updFerry_dies (g : Ferry → Ferry) : (s.updFerry c g).dies = s.dies := rfl
@[simp] theorem State.updFerry_dir (g : Ferry → Ferry) : (s.updFerry c g).dir = s.dir := rfl
@[simp] theorem State.updFerry_reqs (g : Ferry → Ferry) : (s.updFerry c g).reqs = s.reqs := rfl
@[simp] theorem State.updFerry_rids (g : Ferry → Ferry) : (s.updFerry c g).rids = s.rids := rfl
@[simp] theorem State.updFerry_quarry (g : Ferry → Ferry) : (s.updFerry c g).quarry = s.quarry := rfl
@[simp] theorem State.updFerry_pwaits (g : Ferry → Ferry) : (s.updFerry c g).pwaits = s.pwaits := rfl
@[simp] theorem State.updFerry_regs (g : Ferry → Ferry) : (s.updFerry c g).regs = s.regs := rfl
@[simp] theorem State.updFerry_ingressAp (g : Ferry → Ferry) : (s.updFerry c g).ingressAp = s.ingressAp := rfl
@[simp] theorem State.updFerry_queues (g : Ferry → Ferry) : (s.updFerry c g).queues = s.queues := rfl
@[simp] theorem State.updFerry_lastQueue (g : Ferry → Ferry) : (s.updFerry c g).lastQueue = s.lastQueue := rfl
@[simp] theorem State.updFerry_contexts (g : Ferry → Ferry) : (s.updFerry c g).contexts = s.contexts := rfl
@[simp] theorem State.updFerry_launches (g : Ferry → Ferry) : (s.updFerry c g).launches = s.launches := rfl
@[simp] theorem State.updFerry_objects (g : Ferry → Ferry) : (s.updFerry c g).objects = s.objects := rfl
@[simp] theorem State.updFerry_routines (g : Ferry → Ferry) : (s.updFerry c g).routines = s.routines := rfl
@[simp] theorem State.updFerry_jobs (g : Ferry → Ferry) : (s.updFerry c g).jobs = s.jobs := rfl
@[simp] theorem State.updFerry_saves (g : Ferry → Ferry) : (s.updFerry c g).saves = s.saves := rfl
@[simp] theorem State.updFerry_freezes (g : Ferry → Ferry) : (s.updFerry c g).freezes = s.freezes := rfl
@[simp] theorem State.updFerry_channels (g : Ferry → Ferry) : (s.updFerry c g).channels = s.channels := rfl
@[simp] theorem State.updFerry_spanDown (g : Ferry → Ferry) : (s.updFerry c g).spanDown = s.spanDown := rfl
@[simp] theorem State.updFerry_spanReqs (g : Ferry → Ferry) : (s.updFerry c g).spanReqs = s.spanReqs := rfl
@[simp] theorem State.updFerry_spanOut (g : Ferry → Ferry) : (s.updFerry c g).spanOut = s.spanOut := rfl
@[simp] theorem State.updFerry_lentPage (g : Ferry → Ferry) : (s.updFerry c g).lentPage = s.lentPage := rfl
@[simp] theorem State.updFerry_lentTo (g : Ferry → Ferry) : (s.updFerry c g).lentTo = s.lentTo := rfl
@[simp] theorem State.updFerry_farLines (g : Ferry → Ferry) : (s.updFerry c g).farLines = s.farLines := rfl
@[simp] theorem State.updFerry_outbox (g : Ferry → Ferry) : (s.updFerry c g).outbox = s.outbox := rfl
@[simp] theorem State.updFerry_toll (g : Ferry → Ferry) : (s.updFerry c g).toll = s.toll := rfl
@[simp] theorem State.updFerry_scan (g : Ferry → Ferry) : (s.updFerry c g).scan = s.scan := rfl

/-! ## updCtx -/

@[simp] theorem State.updCtx_ticks (g : Ctx → Ctx) : (s.updCtx c g).ticks = s.ticks := rfl
@[simp] theorem State.updCtx_nextId (g : Ctx → Ctx) : (s.updCtx c g).nextId = s.nextId := rfl
@[simp] theorem State.updCtx_picks (g : Ctx → Ctx) : (s.updCtx c g).picks = s.picks := rfl
@[simp] theorem State.updCtx_agenda (g : Ctx → Ctx) : (s.updCtx c g).agenda = s.agenda := rfl
@[simp] theorem State.updCtx_cur (g : Ctx → Ctx) : (s.updCtx c g).cur = s.cur := rfl
@[simp] theorem State.updCtx_cycle (g : Ctx → Ctx) : (s.updCtx c g).cycle = s.cycle := rfl
@[simp] theorem State.updCtx_refCount (g : Ctx → Ctx) : (s.updCtx c g).refCount = s.refCount := rfl
@[simp] theorem State.updCtx_fclk (g : Ctx → Ctx) : (s.updCtx c g).fclk = s.fclk := rfl
@[simp] theorem State.updCtx_mem (g : Ctx → Ctx) : (s.updCtx c g).mem = s.mem := rfl
@[simp] theorem State.updCtx_poisoned (g : Ctx → Ctx) : (s.updCtx c g).poisoned = s.poisoned := rfl
@[simp] theorem State.updCtx_errors (g : Ctx → Ctx) : (s.updCtx c g).errors = s.errors := rfl
@[simp] theorem State.updCtx_regions (g : Ctx → Ctx) : (s.updCtx c g).regions = s.regions := rfl
@[simp] theorem State.updCtx_dies (g : Ctx → Ctx) : (s.updCtx c g).dies = s.dies := rfl
@[simp] theorem State.updCtx_dir (g : Ctx → Ctx) : (s.updCtx c g).dir = s.dir := rfl
@[simp] theorem State.updCtx_reqs (g : Ctx → Ctx) : (s.updCtx c g).reqs = s.reqs := rfl
@[simp] theorem State.updCtx_rids (g : Ctx → Ctx) : (s.updCtx c g).rids = s.rids := rfl
@[simp] theorem State.updCtx_quarry (g : Ctx → Ctx) : (s.updCtx c g).quarry = s.quarry := rfl
@[simp] theorem State.updCtx_pwaits (g : Ctx → Ctx) : (s.updCtx c g).pwaits = s.pwaits := rfl
@[simp] theorem State.updCtx_regs (g : Ctx → Ctx) : (s.updCtx c g).regs = s.regs := rfl
@[simp] theorem State.updCtx_ingressAp (g : Ctx → Ctx) : (s.updCtx c g).ingressAp = s.ingressAp := rfl
@[simp] theorem State.updCtx_queues (g : Ctx → Ctx) : (s.updCtx c g).queues = s.queues := rfl
@[simp] theorem State.updCtx_lastQueue (g : Ctx → Ctx) : (s.updCtx c g).lastQueue = s.lastQueue := rfl
@[simp] theorem State.updCtx_launches (g : Ctx → Ctx) : (s.updCtx c g).launches = s.launches := rfl
@[simp] theorem State.updCtx_objects (g : Ctx → Ctx) : (s.updCtx c g).objects = s.objects := rfl
@[simp] theorem State.updCtx_routines (g : Ctx → Ctx) : (s.updCtx c g).routines = s.routines := rfl
@[simp] theorem State.updCtx_jobs (g : Ctx → Ctx) : (s.updCtx c g).jobs = s.jobs := rfl
@[simp] theorem State.updCtx_ferry (g : Ctx → Ctx) : (s.updCtx c g).ferry = s.ferry := rfl
@[simp] theorem State.updCtx_saves (g : Ctx → Ctx) : (s.updCtx c g).saves = s.saves := rfl
@[simp] theorem State.updCtx_freezes (g : Ctx → Ctx) : (s.updCtx c g).freezes = s.freezes := rfl
@[simp] theorem State.updCtx_channels (g : Ctx → Ctx) : (s.updCtx c g).channels = s.channels := rfl
@[simp] theorem State.updCtx_spanDown (g : Ctx → Ctx) : (s.updCtx c g).spanDown = s.spanDown := rfl
@[simp] theorem State.updCtx_spanReqs (g : Ctx → Ctx) : (s.updCtx c g).spanReqs = s.spanReqs := rfl
@[simp] theorem State.updCtx_spanOut (g : Ctx → Ctx) : (s.updCtx c g).spanOut = s.spanOut := rfl
@[simp] theorem State.updCtx_lentPage (g : Ctx → Ctx) : (s.updCtx c g).lentPage = s.lentPage := rfl
@[simp] theorem State.updCtx_lentTo (g : Ctx → Ctx) : (s.updCtx c g).lentTo = s.lentTo := rfl
@[simp] theorem State.updCtx_farLines (g : Ctx → Ctx) : (s.updCtx c g).farLines = s.farLines := rfl
@[simp] theorem State.updCtx_outbox (g : Ctx → Ctx) : (s.updCtx c g).outbox = s.outbox := rfl
@[simp] theorem State.updCtx_toll (g : Ctx → Ctx) : (s.updCtx c g).toll = s.toll := rfl
@[simp] theorem State.updCtx_scan (g : Ctx → Ctx) : (s.updCtx c g).scan = s.scan := rfl

/-! ## updLaunch -/

@[simp] theorem State.updLaunch_ticks (g : Launch → Launch) : (s.updLaunch c g).ticks = s.ticks := rfl
@[simp] theorem State.updLaunch_nextId (g : Launch → Launch) : (s.updLaunch c g).nextId = s.nextId := rfl
@[simp] theorem State.updLaunch_picks (g : Launch → Launch) : (s.updLaunch c g).picks = s.picks := rfl
@[simp] theorem State.updLaunch_agenda (g : Launch → Launch) : (s.updLaunch c g).agenda = s.agenda := rfl
@[simp] theorem State.updLaunch_cur (g : Launch → Launch) : (s.updLaunch c g).cur = s.cur := rfl
@[simp] theorem State.updLaunch_cycle (g : Launch → Launch) : (s.updLaunch c g).cycle = s.cycle := rfl
@[simp] theorem State.updLaunch_refCount (g : Launch → Launch) : (s.updLaunch c g).refCount = s.refCount := rfl
@[simp] theorem State.updLaunch_fclk (g : Launch → Launch) : (s.updLaunch c g).fclk = s.fclk := rfl
@[simp] theorem State.updLaunch_mem (g : Launch → Launch) : (s.updLaunch c g).mem = s.mem := rfl
@[simp] theorem State.updLaunch_poisoned (g : Launch → Launch) : (s.updLaunch c g).poisoned = s.poisoned := rfl
@[simp] theorem State.updLaunch_errors (g : Launch → Launch) : (s.updLaunch c g).errors = s.errors := rfl
@[simp] theorem State.updLaunch_regions (g : Launch → Launch) : (s.updLaunch c g).regions = s.regions := rfl
@[simp] theorem State.updLaunch_dies (g : Launch → Launch) : (s.updLaunch c g).dies = s.dies := rfl
@[simp] theorem State.updLaunch_dir (g : Launch → Launch) : (s.updLaunch c g).dir = s.dir := rfl
@[simp] theorem State.updLaunch_reqs (g : Launch → Launch) : (s.updLaunch c g).reqs = s.reqs := rfl
@[simp] theorem State.updLaunch_rids (g : Launch → Launch) : (s.updLaunch c g).rids = s.rids := rfl
@[simp] theorem State.updLaunch_quarry (g : Launch → Launch) : (s.updLaunch c g).quarry = s.quarry := rfl
@[simp] theorem State.updLaunch_pwaits (g : Launch → Launch) : (s.updLaunch c g).pwaits = s.pwaits := rfl
@[simp] theorem State.updLaunch_regs (g : Launch → Launch) : (s.updLaunch c g).regs = s.regs := rfl
@[simp] theorem State.updLaunch_ingressAp (g : Launch → Launch) : (s.updLaunch c g).ingressAp = s.ingressAp := rfl
@[simp] theorem State.updLaunch_queues (g : Launch → Launch) : (s.updLaunch c g).queues = s.queues := rfl
@[simp] theorem State.updLaunch_lastQueue (g : Launch → Launch) : (s.updLaunch c g).lastQueue = s.lastQueue := rfl
@[simp] theorem State.updLaunch_contexts (g : Launch → Launch) : (s.updLaunch c g).contexts = s.contexts := rfl
@[simp] theorem State.updLaunch_objects (g : Launch → Launch) : (s.updLaunch c g).objects = s.objects := rfl
@[simp] theorem State.updLaunch_routines (g : Launch → Launch) : (s.updLaunch c g).routines = s.routines := rfl
@[simp] theorem State.updLaunch_jobs (g : Launch → Launch) : (s.updLaunch c g).jobs = s.jobs := rfl
@[simp] theorem State.updLaunch_ferry (g : Launch → Launch) : (s.updLaunch c g).ferry = s.ferry := rfl
@[simp] theorem State.updLaunch_saves (g : Launch → Launch) : (s.updLaunch c g).saves = s.saves := rfl
@[simp] theorem State.updLaunch_freezes (g : Launch → Launch) : (s.updLaunch c g).freezes = s.freezes := rfl
@[simp] theorem State.updLaunch_channels (g : Launch → Launch) : (s.updLaunch c g).channels = s.channels := rfl
@[simp] theorem State.updLaunch_spanDown (g : Launch → Launch) : (s.updLaunch c g).spanDown = s.spanDown := rfl
@[simp] theorem State.updLaunch_spanReqs (g : Launch → Launch) : (s.updLaunch c g).spanReqs = s.spanReqs := rfl
@[simp] theorem State.updLaunch_spanOut (g : Launch → Launch) : (s.updLaunch c g).spanOut = s.spanOut := rfl
@[simp] theorem State.updLaunch_lentPage (g : Launch → Launch) : (s.updLaunch c g).lentPage = s.lentPage := rfl
@[simp] theorem State.updLaunch_lentTo (g : Launch → Launch) : (s.updLaunch c g).lentTo = s.lentTo := rfl
@[simp] theorem State.updLaunch_farLines (g : Launch → Launch) : (s.updLaunch c g).farLines = s.farLines := rfl
@[simp] theorem State.updLaunch_outbox (g : Launch → Launch) : (s.updLaunch c g).outbox = s.outbox := rfl
@[simp] theorem State.updLaunch_toll (g : Launch → Launch) : (s.updLaunch c g).toll = s.toll := rfl
@[simp] theorem State.updLaunch_scan (g : Launch → Launch) : (s.updLaunch c g).scan = s.scan := rfl

/-! ## dueOnce -/

@[simp] theorem State.dueOnce_ticks (a : Activity) : (s.dueOnce a).ticks = s.ticks := by
  unfold State.dueOnce; split <;> rfl
@[simp] theorem State.dueOnce_nextId (a : Activity) : (s.dueOnce a).nextId = s.nextId := by
  unfold State.dueOnce; split <;> rfl
@[simp] theorem State.dueOnce_picks (a : Activity) : (s.dueOnce a).picks = s.picks := by
  unfold State.dueOnce; split <;> rfl
@[simp] theorem State.dueOnce_cur (a : Activity) : (s.dueOnce a).cur = s.cur := by
  unfold State.dueOnce; split <;> rfl
@[simp] theorem State.dueOnce_cycle (a : Activity) : (s.dueOnce a).cycle = s.cycle := by
  unfold State.dueOnce; split <;> rfl
@[simp] theorem State.dueOnce_refCount (a : Activity) : (s.dueOnce a).refCount = s.refCount := by
  unfold State.dueOnce; split <;> rfl
@[simp] theorem State.dueOnce_fclk (a : Activity) : (s.dueOnce a).fclk = s.fclk := by
  unfold State.dueOnce; split <;> rfl
@[simp] theorem State.dueOnce_mem (a : Activity) : (s.dueOnce a).mem = s.mem := by
  unfold State.dueOnce; split <;> rfl
@[simp] theorem State.dueOnce_poisoned (a : Activity) : (s.dueOnce a).poisoned = s.poisoned := by
  unfold State.dueOnce; split <;> rfl
@[simp] theorem State.dueOnce_errors (a : Activity) : (s.dueOnce a).errors = s.errors := by
  unfold State.dueOnce; split <;> rfl
@[simp] theorem State.dueOnce_regions (a : Activity) : (s.dueOnce a).regions = s.regions := by
  unfold State.dueOnce; split <;> rfl
@[simp] theorem State.dueOnce_dies (a : Activity) : (s.dueOnce a).dies = s.dies := by
  unfold State.dueOnce; split <;> rfl
@[simp] theorem State.dueOnce_dir (a : Activity) : (s.dueOnce a).dir = s.dir := by
  unfold State.dueOnce; split <;> rfl
@[simp] theorem State.dueOnce_reqs (a : Activity) : (s.dueOnce a).reqs = s.reqs := by
  unfold State.dueOnce; split <;> rfl
@[simp] theorem State.dueOnce_rids (a : Activity) : (s.dueOnce a).rids = s.rids := by
  unfold State.dueOnce; split <;> rfl
@[simp] theorem State.dueOnce_quarry (a : Activity) : (s.dueOnce a).quarry = s.quarry := by
  unfold State.dueOnce; split <;> rfl
@[simp] theorem State.dueOnce_pwaits (a : Activity) : (s.dueOnce a).pwaits = s.pwaits := by
  unfold State.dueOnce; split <;> rfl
@[simp] theorem State.dueOnce_regs (a : Activity) : (s.dueOnce a).regs = s.regs := by
  unfold State.dueOnce; split <;> rfl
@[simp] theorem State.dueOnce_ingressAp (a : Activity) : (s.dueOnce a).ingressAp = s.ingressAp := by
  unfold State.dueOnce; split <;> rfl
@[simp] theorem State.dueOnce_queues (a : Activity) : (s.dueOnce a).queues = s.queues := by
  unfold State.dueOnce; split <;> rfl
@[simp] theorem State.dueOnce_lastQueue (a : Activity) : (s.dueOnce a).lastQueue = s.lastQueue := by
  unfold State.dueOnce; split <;> rfl
@[simp] theorem State.dueOnce_contexts (a : Activity) : (s.dueOnce a).contexts = s.contexts := by
  unfold State.dueOnce; split <;> rfl
@[simp] theorem State.dueOnce_launches (a : Activity) : (s.dueOnce a).launches = s.launches := by
  unfold State.dueOnce; split <;> rfl
@[simp] theorem State.dueOnce_objects (a : Activity) : (s.dueOnce a).objects = s.objects := by
  unfold State.dueOnce; split <;> rfl
@[simp] theorem State.dueOnce_routines (a : Activity) : (s.dueOnce a).routines = s.routines := by
  unfold State.dueOnce; split <;> rfl
@[simp] theorem State.dueOnce_jobs (a : Activity) : (s.dueOnce a).jobs = s.jobs := by
  unfold State.dueOnce; split <;> rfl
@[simp] theorem State.dueOnce_ferry (a : Activity) : (s.dueOnce a).ferry = s.ferry := by
  unfold State.dueOnce; split <;> rfl
@[simp] theorem State.dueOnce_saves (a : Activity) : (s.dueOnce a).saves = s.saves := by
  unfold State.dueOnce; split <;> rfl
@[simp] theorem State.dueOnce_freezes (a : Activity) : (s.dueOnce a).freezes = s.freezes := by
  unfold State.dueOnce; split <;> rfl
@[simp] theorem State.dueOnce_channels (a : Activity) : (s.dueOnce a).channels = s.channels := by
  unfold State.dueOnce; split <;> rfl
@[simp] theorem State.dueOnce_spanDown (a : Activity) : (s.dueOnce a).spanDown = s.spanDown := by
  unfold State.dueOnce; split <;> rfl
@[simp] theorem State.dueOnce_spanReqs (a : Activity) : (s.dueOnce a).spanReqs = s.spanReqs := by
  unfold State.dueOnce; split <;> rfl
@[simp] theorem State.dueOnce_spanOut (a : Activity) : (s.dueOnce a).spanOut = s.spanOut := by
  unfold State.dueOnce; split <;> rfl
@[simp] theorem State.dueOnce_lentPage (a : Activity) : (s.dueOnce a).lentPage = s.lentPage := by
  unfold State.dueOnce; split <;> rfl
@[simp] theorem State.dueOnce_lentTo (a : Activity) : (s.dueOnce a).lentTo = s.lentTo := by
  unfold State.dueOnce; split <;> rfl
@[simp] theorem State.dueOnce_farLines (a : Activity) : (s.dueOnce a).farLines = s.farLines := by
  unfold State.dueOnce; split <;> rfl
@[simp] theorem State.dueOnce_outbox (a : Activity) : (s.dueOnce a).outbox = s.outbox := by
  unfold State.dueOnce; split <;> rfl
@[simp] theorem State.dueOnce_toll (a : Activity) : (s.dueOnce a).toll = s.toll := by
  unfold State.dueOnce; split <;> rfl
@[simp] theorem State.dueOnce_scan (a : Activity) : (s.dueOnce a).scan = s.scan := by
  unfold State.dueOnce; split <;> rfl

end Sys2Proof.Machine
end

