-- ==== Sys2Proof/Laws/Physical.lean ====
section
/-! SUPPORT. What writes of memory, events and the completion of a packet can change, and that they and the moves of pages keep
the canonical form of memory. -/

namespace Sys2Proof.Machine

open Sys2Proof

/-! ## Shapes -/

/-- Nothing differs between two states but what is due and its order. -/
def OnlyDue (s t : State) : Prop := t = { s with agenda := t.agenda, picks := t.picks }

theorem OnlyDue.refl (s : State) : OnlyDue s s := rfl

theorem OnlyDue.trans {s t u : State} (h : OnlyDue s t) (k : OnlyDue t u) : OnlyDue s u := by
  unfold OnlyDue at *
  rw [k, h]

theorem onlyDue_dueOnce (s : State) (a : Activity) : OnlyDue s (s.dueOnce a) := by
  unfold State.dueOnce
  split
  · exact .refl s
  · rfl

theorem onlyDue_dueNow (s : State) (i : Instr) (x : Site) : OnlyDue s (s.dueNow i x) := rfl

theorem onlyDue_foldl {α : Type} (f : State → α → State) (h : ∀ s x, OnlyDue s (f s x)) (l : List α) (s : State) :
    OnlyDue s (l.foldl f s) := by
  induction l generalizing s with
  | nil => exact .refl s
  | cons x rest ih => exact (h s x).trans (ih (f s x))

theorem OnlyDue.ite {s t : State} (p : Prop) [Decidable p] (h : OnlyDue s t) : OnlyDue s (if p then t else s) := by
  split
  · exact h
  · exact .refl s

/-- Notice of a write only brings what follows from it. -/
theorem onlyDue_noticeWrite (s : State) (line : Nat) (q : Option Nat) : OnlyDue s (s.noticeWrite line q) := by
  unfold State.noticeWrite
  exact (((onlyDue_foldl _ (fun u _ => (OnlyDue.ite _ (onlyDue_dueOnce u _)).trans
    (OnlyDue.ite _ (onlyDue_dueNow _ _ _))) s.queues s).trans (OnlyDue.ite _ (onlyDue_dueOnce _ _))).trans
    (OnlyDue.ite _ (onlyDue_dueNow _ _ _))).trans (OnlyDue.ite _ (onlyDue_dueNow _ _ _))

/-- Nothing differs between two states but memory with its copies, what is due and its order, and what goes to the new home of a page in
hand-over. -/
def OnlyMemory (s t : State) : Prop :=
  t = { s with agenda := t.agenda, picks := t.picks, mem := t.mem, regions := t.regions, dies := t.dies, nextId := t.nextId,
               reqs := t.reqs, spanReqs := t.spanReqs, farLines := t.farLines }

theorem OnlyMemory.refl (s : State) : OnlyMemory s s := rfl

theorem OnlyMemory.trans {s t u : State} (h : OnlyMemory s t) (k : OnlyMemory t u) : OnlyMemory s u := by
  unfold OnlyMemory at *
  rw [k, h]

theorem OnlyDue.memory {s t : State} (h : OnlyDue s t) : OnlyMemory s t := by
  unfold OnlyDue at h
  unfold OnlyMemory
  rw [h]

theorem onlyMemory_foldl {α : Type} (f : State → α → State) (h : ∀ s x, OnlyMemory s (f s x)) (l : List α) (s : State) :
    OnlyMemory s (l.foldl f s) := by
  induction l generalizing s with
  | nil => exact .refl s
  | cons x rest ih => exact (h s x).trans (ih (f s x))

theorem onlyMemory_putPhys (s : State) (pa : Nat) (b : Byte) : OnlyMemory s (s.putPhys pa b) := by
  unfold State.putPhys
  dsimp only
  split <;> rfl

/-- A request of the device's own that goes on to the new home of a page is all that a forwarded access adds. -/
theorem onlyMemory_toSpan (s : State) (id d pa : Nat) : OnlyMemory s (s.toSpan id d pa) := by
  unfold State.toSpan
  dsimp only
  split <;> rfl

theorem onlyMemory_forwardOwn (s : State) (q : MemReq) (pa : Nat) : OnlyMemory s (s.forwardOwn q pa) := by
  unfold State.forwardOwn
  exact OnlyMemory.trans (t := { s with nextId := s.fresh.2.nextId, reqs := _ }) rfl (onlyMemory_toSpan _ _ _ _)

theorem onlyMemory_forwardWrite (s : State) (pa : Nat) (bs : List Byte) : OnlyMemory s (s.forwardWrite pa bs) := by
  unfold State.forwardWrite
  exact OnlyMemory.trans (t := { s with farLines := updEntry s.farLines (pa / 128) _ }) rfl (onlyMemory_forwardOwn _ _ _)

/-- A write of memory changes memory and its copies, and brings what follows from it. -/
theorem onlyMemory_writePhysBy (s : State) (pa : Nat) (bs : List Byte) (q : Option Nat) :
    OnlyMemory s (s.writePhysBy pa bs q) := by
  unfold State.writePhysBy
  split
  · exact onlyMemory_forwardWrite s pa bs
  dsimp only
  have h := onlyMemory_foldl (fun s (x : Byte × Nat) => s.putPhys (pa + x.2) x.1)
    (fun s x => onlyMemory_putPhys s _ _) (bs.zip (List.range bs.length)) s
  split
  · exact h
  · exact h.trans (onlyMemory_foldl _ (fun s k => (onlyDue_noticeWrite s _ _).memory) _ _)

theorem onlyMemory_writePhys (s : State) (pa : Nat) (bs : List Byte) : OnlyMemory s (s.writePhys pa bs) :=
  onlyMemory_writePhysBy s pa bs none

/-- A write of memory leaves every queue as it was. -/
@[simp] theorem State.writePhysBy_queues (s : State) (pa : Nat) (bs : List Byte) (q : Option Nat) :
    (s.writePhysBy pa bs q).queues = s.queues := by rw [onlyMemory_writePhysBy s pa bs q]

@[simp] theorem State.writePhys_queues (s : State) (pa : Nat) (bs : List Byte) : (s.writePhys pa bs).queues = s.queues :=
  State.writePhysBy_queues s pa bs none

/-- Nothing differs between two states but memory with its copies, the queues, what is due and its order, and what goes to the new home of a
page in hand-over. -/
def OnlyQueues (s t : State) : Prop :=
  t = { s with agenda := t.agenda, picks := t.picks, mem := t.mem, regions := t.regions, dies := t.dies, nextId := t.nextId,
               reqs := t.reqs, spanReqs := t.spanReqs, farLines := t.farLines, queues := t.queues }

theorem OnlyQueues.refl (s : State) : OnlyQueues s s := rfl

theorem OnlyQueues.trans {s t u : State} (h : OnlyQueues s t) (k : OnlyQueues t u) : OnlyQueues s u := by
  unfold OnlyQueues at *
  rw [k, h]

theorem OnlyMemory.toQueues {s t : State} (h : OnlyMemory s t) : OnlyQueues s t := by
  unfold OnlyMemory at h
  unfold OnlyQueues
  rw [h]

theorem OnlyDue.queues {s t : State} (h : OnlyDue s t) : OnlyQueues s t := h.memory.toQueues

theorem onlyQueues_updQueue (s : State) (q : Nat) (f : Queue → Queue) : OnlyQueues s (s.updQueue q f) := rfl

theorem onlyQueues_drainEvents (n : Nat) (s : State) (q : Nat) : OnlyQueues s (State.drainEvents n s q) := by
  induction n generalizing s with
  | zero => exact .refl s
  | succ n ih =>
    unfold State.drainEvents
    dsimp only
    split
    · exact .refl s
    · split
      · exact .refl s
      · split
        · exact (onlyDue_dueOnce s _).queues
        · exact ((onlyQueues_updQueue s q _).trans (onlyMemory_writePhys _ _ _).toQueues).trans (ih _)

/-- The posting of an event changes its queue and memory, and brings what follows from the write. -/
theorem onlyQueues_post (s : State) (q : Nat) (e : EventRec) : OnlyQueues s (s.post q e) := by
  unfold State.post
  exact (onlyQueues_updQueue s q _).trans (onlyQueues_drainEvents _ _ _)

/-! ## The canonical form -/

/-- The vault of a region of a state in canonical form is in canonical form. -/
theorem memoryOk_region {s : State} (h : Safety.memoryOk s = true) (c : Nat) :
    Bytes.wf (s.region c).vaultBytes = true := by
  unfold Safety.memoryOk at h
  simp only [Bool.and_eq_true, List.all_eq_true] at h
  unfold State.region Table.getD
  have : ∀ (t : Table Region), (∀ e ∈ t, Bytes.wf e.2.vaultBytes = true) →
      Bytes.wf ((t.get? c).getD Region.reset).vaultBytes = true := by
    intro t
    induction t with
    | nil => intro _; rfl
    | cons e rest ih =>
      intro hm
      obtain ⟨k, r⟩ := e
      simp only [Table.get?]
      split
      · exact hm (k, r) (by simp)
      · exact ih (fun e he => hm e (by simp [he]))
  exact this s.regions h.2

/-- A table all of whose entries meet a condition keeps it where the entry that is set meets it. -/
theorem all_set {α : Type} (p : α → Bool) (t : Table α) (n : Nat) (v : α) (h : t.all (fun e => p e.2) = true)
    (hv : p v = true) : (Table.set t n v).all (fun e => p e.2) = true := by
  induction t with
  | nil => simp [Table.set, hv]
  | cons e rest ih =>
    obtain ⟨k, w⟩ := e
    simp only [List.all_cons, Bool.and_eq_true] at h
    simp only [Table.set]
    split
    · simp [hv, h.1, h.2]
    · split
      · simp [hv, h.2]
      · simp [h.1, ih h.2]

/-- A change of one region keeps the canonical form where its vault keeps it. -/
theorem memoryOk_updRegion {s : State} (h : Safety.memoryOk s = true) (c : Nat) (f : Region → Region)
    (hf : Bytes.wf (f (s.region c)).vaultBytes = true) : Safety.memoryOk (s.updRegion c f) = true := by
  unfold Safety.memoryOk at *
  simp only [Bool.and_eq_true] at *
  exact ⟨h.1, all_set (fun (r : Region) => Bytes.wf r.vaultBytes) _ _ _ h.2 hf⟩

/-- States with the same memory and regions are in canonical form together. -/
theorem memoryOk_congr {s t : State} (hm : t.mem = s.mem) (hr : t.regions = s.regions) :
    Safety.memoryOk t = Safety.memoryOk s := by
  unfold Safety.memoryOk
  rw [hm, hr]

theorem memoryOk_foldl {α : Type} (f : State → α → State)
    (h : ∀ s x, Safety.memoryOk s = true → Safety.memoryOk (f s x) = true) (l : List α) (s : State)
    (hs : Safety.memoryOk s = true) : Safety.memoryOk (l.foldl f s) = true := by
  induction l generalizing s with
  | nil => exact hs
  | cons x rest ih => exact ih _ (h s x hs)

/-- What does not touch memory or regions keeps the canonical form. -/
theorem memoryOk_due {s t : State} (h : OnlyDue s t) (hs : Safety.memoryOk s = true) : Safety.memoryOk t = true := by
  unfold OnlyDue at h
  rw [h]
  exact hs

/-- A forwarded write keeps the canonical form: the page's bytes stand at its new home. -/
theorem memoryOk_forwardWrite (s : State) (pa : Nat) (bs : List Byte) (h : Safety.memoryOk s = true) :
    Safety.memoryOk (s.forwardWrite pa bs) = true := by
  have toSpan : ∀ (u : State) (id d pa : Nat), Safety.memoryOk u = true → Safety.memoryOk (u.toSpan id d pa) = true := by
    intro u id d pa hu
    unfold State.toSpan
    dsimp only
    split <;> exact hu
  exact toSpan _ _ _ _ h

/-- A byte that becomes visible keeps the canonical form. -/
theorem memoryOk_putPhys (s : State) (pa : Nat) (b : Byte) (h : Safety.memoryOk s = true) :
    Safety.memoryOk (s.putPhys pa b) = true := by
  unfold State.putPhys
  dsimp only
  have hk : ∀ g : Nat × Region → Nat × Region, (∀ e, (g e).2.vaultBytes = e.2.vaultBytes) →
      (s.regions.map g).all (fun e => Bytes.wf e.2.vaultBytes) = true := by
    intro g hf
    unfold Safety.memoryOk at h
    simp only [Bool.and_eq_true, List.all_eq_true, List.mem_map] at *
    rintro e ⟨x, hx, rfl⟩
    simp only [hf]
    exact h.2 x hx
  have hm : Bytes.wf s.mem = true := by
    unfold Safety.memoryOk at h
    simp only [Bool.and_eq_true] at h
    exact h.1
  split
  · refine memoryOk_updRegion ?_ _ _ (Bytes.wf_put _ _ _ (memoryOk_region ?_ _)) <;>
    · unfold Safety.memoryOk
      simp only [Bool.and_eq_true]
      exact ⟨hm, hk _ (fun _ => rfl)⟩
  · unfold Safety.memoryOk
    simp only [Bool.and_eq_true]
    exact ⟨Bytes.wf_put _ _ _ hm, hk _ (fun _ => rfl)⟩

/-- A write of memory keeps the canonical form. -/
theorem memoryOk_writePhysBy (s : State) (pa : Nat) (bs : List Byte) (q : Option Nat) (h : Safety.memoryOk s = true) :
    Safety.memoryOk (s.writePhysBy pa bs q) = true := by
  unfold State.writePhysBy
  split
  · exact memoryOk_forwardWrite s pa bs h
  dsimp only
  have h1 := memoryOk_foldl (fun s (x : Byte × Nat) => s.putPhys (pa + x.2) x.1)
    (fun s x hs => memoryOk_putPhys s _ _ hs) (bs.zip (List.range bs.length)) s h
  split
  · exact h1
  · exact memoryOk_foldl _ (fun u k hu => memoryOk_due (onlyDue_noticeWrite u (pa / 128 + k) q) hu) _ _ h1

/-- The posting of an event keeps the canonical form. -/
theorem memoryOk_drainEvents (n : Nat) (s : State) (q : Nat) (h : Safety.memoryOk s = true) :
    Safety.memoryOk (State.drainEvents n s q) = true := by
  induction n generalizing s with
  | zero => exact h
  | succ n ih =>
    unfold State.drainEvents
    dsimp only
    split
    · exact h
    · split
      · exact h
      · split
        · exact memoryOk_due (onlyDue_dueOnce s _) h
        · exact ih _ (memoryOk_writePhysBy _ _ _ _ h)

theorem memoryOk_post (s : State) (q : Nat) (e : EventRec) (h : Safety.memoryOk s = true) :
    Safety.memoryOk (s.post q e) = true := by
  unfold State.post
  exact memoryOk_drainEvents _ _ _ h

/-- Reset memory is in canonical form. -/
theorem reset_memory_wf : Bytes.wf State.reset.mem = true := rfl

end Sys2Proof.Machine
end

