-- ==== Sys2Proof/Laws/Residency.lean ====
section
/-! SUPPORT. The moves of whole lines and pages keep the canonical form of memory: eviction, vault slots and the service of a
demand entry. -/

namespace Sys2Proof.Machine

open Sys2Proof

/-- A move of bytes keeps the canonical form of its destination. -/
theorem wf_moveBytes (src : Bytes) (lo n : Nat) (dst : Bytes) (at_ : Nat) (h : Bytes.wf dst = true) :
    Bytes.wf (moveBytes src lo n dst at_) = true :=
  Bytes.wf_foldl_put _ (fun (e : Nat × Byte) => at_ + (e.1 - lo)) (fun e => e.2) _ (Bytes.wf_filter dst _ h)

/-- Memory is in canonical form, and so is every vault. -/
theorem memoryOk_iff (s : State) :
    Safety.memoryOk s = true ↔ Bytes.wf s.mem = true ∧ ∀ e ∈ s.regions, Bytes.wf e.2.vaultBytes = true := by
  unfold Safety.memoryOk
  simp [List.all_eq_true]

/-- Memory written anew keeps the canonical form where the new memory has it. -/
theorem memoryOk_mem {s : State} (h : Safety.memoryOk s = true) (m : Bytes) (hm : Bytes.wf m = true) :
    Safety.memoryOk { s with mem := m } = true :=
  (memoryOk_iff _).mpr ⟨hm, ((memoryOk_iff s).mp h).2⟩

/-- A line saved to memory or to its vault slot keeps the canonical form. -/
theorem memoryOk_saveLine (s : State) (line : Nat) (v : Wide) (h : Safety.memoryOk s = true) :
    Safety.memoryOk (s.saveLine line v) = true := by
  unfold State.saveLine
  generalize wideBytes v = bs
  split
  · exact memoryOk_updRegion h _ _ (Bytes.wf_putRange _ _ _ (memoryOk_region h _))
  · exact memoryOk_mem h _ (Bytes.wf_putRange _ _ _ ((memoryOk_iff s).mp h).1)

/-- The drop of a page's lines from the caches keeps the canonical form. -/
theorem memoryOk_dropPage (s : State) (page : Nat) (h : Safety.memoryOk s = true) :
    Safety.memoryOk (s.dropPage page) = true := by
  rw [memoryOk_iff] at *
  refine ⟨h.1, ?_⟩
  unfold State.dropPage
  simp only [List.mem_map]
  rintro e ⟨x, hx, rfl⟩
  exact h.2 x hx

/-- A page that leaves its slot keeps the canonical form. -/
theorem memoryOk_emptySlot (s : State) (c n : Nat) (h : Safety.memoryOk s = true) :
    Safety.memoryOk (s.emptySlot c n) = true := by
  unfold State.emptySlot
  split
  · exact h
  · exact memoryOk_updRegion (memoryOk_mem h _ (wf_moveBytes _ _ _ _ _ ((memoryOk_iff s).mp h).1)) _ _
      (Bytes.wf_filter _ _ (memoryOk_region h c))

/-- A page that fills a slot keeps the canonical form. -/
theorem memoryOk_fillSlot (s : State) (c n page : Nat) (h : Safety.memoryOk s = true) :
    Safety.memoryOk (s.fillSlot c n page) = true := by
  have hd := memoryOk_dropPage s page h
  exact memoryOk_updRegion hd _ _ (wf_moveBytes _ _ _ _ _ (memoryOk_region hd c))

/-- The service of a demand entry keeps the canonical form. -/
theorem memoryOk_servicePage (s : State) (entry : Nat) (h : Safety.memoryOk s = true) :
    Safety.memoryOk (s.servicePage entry) = true := by
  unfold State.servicePage
  dsimp only
  split
  · refine memoryOk_writePhysBy _ _ _ _ (memoryOk_mem (memoryOk_dropPage _ _ ?_) _ (Bytes.wf_filter _ _ ?_))
    · rw [← memoryOk_congr (s := s) (t := { s with regs := _ }) rfl rfl] at h
      exact h
    · exact ((memoryOk_iff s).mp h).1
  · exact h

end Sys2Proof.Machine
end

