-- ==== Sys2Proof/Laws/Tokens.lean ====
section
/-! SUPPORT. What the token operations can change: what is due and the regions, and of the regions only that of the token's
cluster. -/

namespace Sys2Proof.Machine

open Sys2Proof

/-- Nothing differs between two states but what is due, its order, and the region of one cluster. -/
structure OnlyCluster (c : Nat) (s t : State) : Prop where
  shape  : t = { s with agenda := t.agenda, picks := t.picks, regions := t.regions }
  others : ∀ d, d ≠ c → t.region d = s.region d

theorem OnlyCluster.rfl' (c : Nat) (s : State) : OnlyCluster c s s := ⟨rfl, fun _ _ => rfl⟩

theorem OnlyCluster.trans {c : Nat} {s t u : State} (h : OnlyCluster c s t) (k : OnlyCluster c t u) : OnlyCluster c s u :=
  ⟨by rw [k.shape, h.shape], fun d hd => (k.others d hd).trans (h.others d hd)⟩

theorem OnlyCluster.mem {c : Nat} {s t : State} (h : OnlyCluster c s t) : t.mem = s.mem := by rw [h.shape]

theorem OnlyCluster.cur {c : Nat} {s t : State} (h : OnlyCluster c s t) : t.cur = s.cur := by rw [h.shape]

theorem onlyCluster_updRegion (s : State) (c : Nat) (f : Region → Region) : OnlyCluster c s (s.updRegion c f) :=
  ⟨rfl, fun _ hd => State.updRegion_region_ne s c f hd⟩

theorem onlyCluster_due (c : Nat) (s : State) (a : Activity) : OnlyCluster c s (s.due a) := ⟨rfl, fun _ _ => rfl⟩

theorem onlyCluster_dueEvent (c : Nat) (s : State) (i : Instr) (x : Site) : OnlyCluster c s (s.dueEvent i x) :=
  onlyCluster_due c s _

theorem onlyCluster_dueOnce (c : Nat) (s : State) (a : Activity) : OnlyCluster c s (s.dueOnce a) := by
  unfold State.dueOnce
  split
  · exact .rfl' c s
  · exact onlyCluster_due c s a

theorem onlyCluster_updCounts (s : State) (c : Nat) (x : BitVec 8) (f : Counts → Counts) :
    OnlyCluster c s (s.updCounts c x f) := onlyCluster_updRegion s c _

/-- The opening of a wave stays in the cluster. -/
theorem onlyCluster_enterBlock (s : State) (c blk : Nat) (g : Word) : OnlyCluster c s (s.enterBlock c blk g) := by
  unfold State.enterBlock
  split
  · exact .rfl' c s
  · dsimp only
    split
    · exact (onlyCluster_updRegion s c _).trans (onlyCluster_dueEvent c _ _ _)
    · exact onlyCluster_updRegion s c _

theorem onlyCluster_startWait (s : State) (c st : Nat) : OnlyCluster c s (s.startWait c st) := by
  unfold State.startWait
  split
  · exact .rfl' c s
  · exact (onlyCluster_updRegion s c _).trans (onlyCluster_dueOnce c _ _)

/-- The counting of an arrival stays in the cluster. -/
theorem onlyCluster_countArrival (s : State) (c st key : Nat) : OnlyCluster c s (s.countArrival c st key) := by
  unfold State.countArrival
  split
  · exact .rfl' c s
  · exact (onlyCluster_updRegion s c _).trans (onlyCluster_dueOnce c _ _)

theorem onlyCluster_takeCredit (s : State) (c st key : Nat) : OnlyCluster c s (s.takeCredit c st key) :=
  (onlyCluster_updRegion s c _).trans (onlyCluster_countArrival _ c st key)

theorem onlyCluster_launchToken (s : State) (st c : Nat) (t : Token) (hc : t.cluster = c) :
    OnlyCluster c s (s.launchToken st t) := by
  subst hc
  unfold State.launchToken
  dsimp only
  split
  · exact (onlyCluster_takeCredit s _ _ _).trans (onlyCluster_dueEvent _ _ _ _)
  · exact (onlyCluster_updRegion s _ _).trans (onlyCluster_startWait _ _ _)

/-- A token that is sent changes nothing outside its cluster. -/
theorem onlyCluster_sendToken (s : State) (st c : Nat) (t : Token) (hc : t.cluster = c) :
    OnlyCluster c s (s.sendToken st t) := by
  subst hc
  unfold State.sendToken
  dsimp only
  refine OnlyCluster.trans ?_ (onlyCluster_launchToken _ st _ t rfl)
  have h : OnlyCluster t.cluster s (s.flightUp t.cluster t.tag) := onlyCluster_updCounts s _ _ _
  split
  · exact h.trans (onlyCluster_enterBlock _ _ _ _)
  · exact h.trans (onlyCluster_enterBlock _ _ _ _)
  · exact h

/-- A value that is sent to a target changes nothing outside the cluster. -/
theorem onlyCluster_emitTo (s : State) (c st : Nat) (t : Target) (v : Value) (g : Word) :
    OnlyCluster c s (s.emitTo c st t v g) := by
  unfold State.emitTo
  split
  · exact onlyCluster_sendToken s st c _ rfl
  · exact .rfl' c s

theorem onlyCluster_emitTag (s : State) (t : Target) (v : Value) (g : Word) :
    OnlyCluster s.cur.cluster s (s.emitTag t v g) := onlyCluster_emitTo s _ _ t v g

/-- The sending of a result to both targets changes nothing outside the cluster in hand. -/
theorem onlyCluster_sendTag (s : State) (r : Rec) (v : Value) (g : Word) :
    OnlyCluster s.cur.cluster s (s.sendTag r v g) := by
  have h := onlyCluster_emitTag s r.t0 v g
  have k := onlyCluster_emitTag (s.emitTag r.t0 v g) r.t1 v g
  rw [h.cur] at k
  exact h.trans k

theorem onlyCluster_send (s : State) (r : Rec) (v : Value) : OnlyCluster s.cur.cluster s (s.send r v) :=
  onlyCluster_sendTag s r v _

theorem onlyCluster_sendWord (s : State) (r : Rec) (v : Word) : OnlyCluster s.cur.cluster s (s.sendWord r v) :=
  onlyCluster_send s r _

/-- The end of a reply's token stays in the cluster. -/
theorem onlyCluster_useReply (s : State) (c : Nat) (n : Option Nat) : OnlyCluster c s (s.useReply c n) := by
  cases n with
  | none => exact .rfl' c s
  | some n =>
    simp only [State.useReply]
    split
    · exact .rfl' c s
    · split
      · exact (onlyCluster_updRegion s c _).trans (onlyCluster_updCounts _ c _ _)
      · exact onlyCluster_updRegion s c _

theorem onlyCluster_spend (s : State) (c : Nat) (g : Word) (n : Option Nat) : OnlyCluster c s (s.spend c g n) :=
  (onlyCluster_updCounts s c _ _).trans (onlyCluster_useReply _ c n)

theorem onlyCluster_slotsFreed (s : State) (c had : Nat) : OnlyCluster c s (s.slotsFreed c had) := by
  unfold State.slotsFreed
  split
  · exact onlyCluster_dueOnce c s _
  · exact .rfl' c s

theorem onlyCluster_freeCredit (s : State) (c key : Nat) (g : Word) : OnlyCluster c s (s.freeCredit c key g) :=
  (onlyCluster_updCounts s c _ _).trans (onlyCluster_dueEvent c _ _ _)

/-- The removal of a stored token changes nothing outside its cluster. -/
theorem onlyCluster_takeEntry (s : State) (c : Nat) (p : MatchEntry → Bool) : OnlyCluster c s (s.takeEntry c p) := by
  unfold State.takeEntry
  split
  · next e _ =>
    have h : OnlyCluster c s (((s.updRegion c (fun r => { r with store := eraseFirst p r.store })).spend c e.tag
        e.reply).slotsFreed c (s.overflowOf c)) :=
      ((onlyCluster_updRegion s c _).trans (onlyCluster_spend _ c _ _)).trans (onlyCluster_slotsFreed _ c _)
    dsimp only
    split
    · exact h.trans (onlyCluster_freeCredit _ c _ _)
    · exact h
  · exact .rfl' c s

/-- A fold of changes within a cluster is a change within it. -/
theorem onlyCluster_foldl {α : Type} (c : Nat) (f : State → α → State) (h : ∀ s x, OnlyCluster c s (f s x)) (l : List α)
    (s : State) : OnlyCluster c s (l.foldl f s) := by
  induction l generalizing s with
  | nil => exact .rfl' c s
  | cons x rest ih => exact (h s x).trans (ih (f s x))

theorem onlyCluster_askPulls (s : State) (c st op : Nat) (r : Rec) (g : Word) :
    OnlyCluster c s (s.askPulls c st op r g) := by
  unfold State.askPulls
  dsimp only
  split
  · refine onlyCluster_foldl c _ (fun s p => ?_) _ s
    split
    · exact .rfl' c s
    · exact (onlyCluster_updRegion s c _).trans (onlyCluster_sendToken _ st c _ rfl)
  · exact .rfl' c s

theorem onlyCluster_offer (s : State) (c st op : Nat) (r : Rec) (g : Word) : OnlyCluster c s (s.offer c st op r g) := by
  unfold State.offer
  split
  · exact onlyCluster_dueOnce c s _
  · exact .rfl' c s

/-- The consumption of a firing's tokens changes nothing outside its cluster. -/
theorem onlyCluster_consume (s : State) (op : Nat) (r : Rec) : OnlyCluster s.cur.cluster s (s.consume op r) := by
  unfold State.consume
  dsimp only
  refine OnlyCluster.trans ?_ (onlyCluster_offer _ _ _ _ _ _)
  refine OnlyCluster.trans ?_ (onlyCluster_askPulls _ _ _ _ _ _)
  refine OnlyCluster.trans ?_ (onlyCluster_updRegion _ _ _)
  exact (onlyCluster_foldl s.cur.cluster _ (fun u t => onlyCluster_takeEntry u s.cur.cluster _) _ s).trans
    (onlyCluster_foldl s.cur.cluster _ (fun u p => onlyCluster_takeEntry u s.cur.cluster _) _ _)

/-- The firing in hand is the same after its tokens are consumed. -/
@[simp] theorem State.consume_cur (s : State) (op : Nat) (r : Rec) : (s.consume op r).cur = s.cur :=
  (onlyCluster_consume s op r).cur

/-- A firing whose effect stays in its cluster answers a next state that differs nowhere else. -/
theorem onlyCluster_firing (op : Nat) (r : Rec) (effect : State → State) (s t : State)
    (he : ∀ u, OnlyCluster u.cur.cluster u (effect u)) (h : firing op r effect s = .next t) :
    OnlyCluster s.cur.cluster s t := by
  unfold firing at h
  have hc := onlyCluster_consume s op r
  split at h
  · have := he (s.consume op r)
    rw [State.consume_cur] at this
    cases h
    exact hc.trans this
  · cases h; exact hc

/-- A firing always goes on. -/
theorem firing_next (op : Nat) (r : Rec) (effect : State → State) (s : State) :
    ∃ t, firing op r effect s = .next t := by
  unfold firing
  split
  · exact ⟨_, rfl⟩
  · exact ⟨_, rfl⟩

end Sys2Proof.Machine
end

