-- ==== Sys2Proof/Tests/Slice0.lean ====
section
/-! SUPPORT. Tests: ill-formed terms refused, words written out from the manual's encodings, worked results of the manual, and for
every statement states that meet its hypotheses. -/

namespace Sys2Proof.Tests

open Sys2Proof Sys2Proof.Machine Sys2Proof.Spec

set_option Elab.async false

/-! ## Builders -/

def noTarget : Target := { valid := false, port := .a, addr := 0 }

def port0 : PortCfg := { act := .consume, fe := false, low := 0 }

def immPort : PortCfg := { act := .immediate, fe := false, low := 0 }

def noPort : SidePort := { act := .immediate, queue := 0 }

/-- A record with one consume port A on queue 0 and an immediate port B. -/
def rec0 : Rec :=
  { fmt := 0, flags := 0, t0 := noTarget, t1 := noTarget, a := port0, b := immPort, c := noPort, p := noPort, block := 0, f6 := 0,
    f7 := 0 }

/-- The reset state with something in hand. -/
def at_ (x : Site) : State := { State.reset with cur := x }

/-- A context with CTX 0 of a launch 1 on a rectangle. -/
def ctx (rect : Rect) : Ctx :=
  { id := 1, ctx := 0, rect := rect, cfg := 1, launch := 1, trapped := false, killed := false, saved := false, spec := false,
    seeded := true }

def unit : Rect := { x0 := 0, y0 := 0, lw := 0, lh := 0 }

def whole : Rect := { x0 := 0, y0 := 0, lw := 3, lh := 3 }

/-- Why a decoder refuses. -/
def why {α : Type} : Except Reject α → Option Reject
  | .error e => some e
  | .ok _ => none

/-- A state with a live context of cluster 0. -/
def live (s : State) : State := { s with contexts := [ctx unit] }

/-- A state with region 0 changed. -/
def reg0 (s : State) (f : Region → Region) : State := { s with regions := [(0, f Region.reset)] }

/-! ## Ill-formed instructions are refused -/

def goodCtl : Ctl :=
  { zidx := 0, atile := 0, btile := 0, acc := false, tra := false, trb := false, sat := false, bstr := false, scl := 0 }

def goodLaunch : LaunchPkt :=
  { spec := false, ext := false, notify := false, prio := 0, handle := 1, rect := 0, classes := 0, bind0 := 0, extptr := 0, arg0 := 0,
    arg1 := 0, arg2 := 0, arg3 := 0, arg4 := 0, arg5 := 0, arg6 := 0 }

theorem test_wf_control :
    (Instr.mma goodCtl).wf = true ∧ (Instr.mma { goodCtl with zidx := 16 }).wf = false ∧
    (Instr.mmap { goodCtl with atile := 48 }).wf = false ∧ (Instr.mma { goodCtl with btile := 48 }).wf = false ∧
    (Instr.mmap { goodCtl with bstr := true, btile := 32 }).wf = false ∧ (Instr.mma { goodCtl with scl := 3 }).wf = false := by decide

theorem test_wf_commands :
    (Instr.configWrite 0x1FFF 0 0).wf = false ∧ (Instr.beginStream 0).wf = false ∧ (Instr.patbegin 1).wf = true ∧
    (Instr.patend 1).wf = true ∧ (Instr.endStream 1).wf = true ∧ (Instr.recta 0x400).wf = false ∧
    (Instr.rectb 0x8000).wf = false ∧ (Instr.configWrite 0 0 0).wf = true ∧ (Instr.rectb 0x3FF).wf = true := by decide

theorem test_wf_vacant_address : (Instr.configWrite 0x12C4 0 0).wf = false := by decide

theorem test_wf_packets :
    (Instr.launch goodLaunch).wf = true ∧ (Instr.launch { goodLaunch with rect := 0x400 }).wf = false ∧
    (Instr.launch { goodLaunch with classes := 0xC0000000 }).wf = false ∧ (Instr.wait 64 0).wf = false ∧
    (Instr.loadPlace 0x8000 0 0 0).wf = false ∧ (Instr.freeze 0x400 0).wf = false ∧ (Instr.drainPacket 0x400 0 0).wf = false ∧
    (Instr.kill 64).wf = false ∧ (Instr.release 64).wf = false ∧ (Instr.continuePkt 64 0).wf = false ∧
    (Instr.retry 64 0).wf = false ∧ (Instr.kill 63).wf = true := by decide

theorem test_wf_writes :
    (Instr.ingressRecord 64 0 0 0).wf = false ∧ (Instr.ingressRecord 0 8 0 0).wf = false ∧ (Instr.apertureSeal 3).wf = false ∧
    (Instr.apertureSeal 64).wf = false ∧ (Instr.evheadWrite 64 0).wf = false ∧ (Instr.qctlWrite 64 0).wf = false ∧
    (Instr.hintWrite 64 0 [1]).wf = false ∧ (Instr.hintWrite 0 61 [1, 2, 3, 4]).wf = false ∧ (Instr.hintWrite 0 0 []).wf = false ∧
    (Instr.registerWrite 0x10 [0, 0, 0, 0]).wf = false ∧ (Instr.handoverGo 0).wf = false ∧
    (Instr.handoverEnd 0xC0000000).wf = false ∧ (Instr.handoverEnd 0).wf = false ∧ (Instr.rcvctlGo 0).wf = false := by decide

theorem test_wf_codes :
    (Instr.bypass 0x01).wf = false ∧ (Instr.bypass 0x00).wf = true ∧ (Instr.unknownMgmtCode 0x0A).wf = false ∧
    (Instr.unknownMgmtCode 0x0B).wf = true := by decide

/-- A record is refused for a form of another row, a reserved code of FMT, a port that may not be immediate and a record without a
consume port. -/
theorem test_wf_records :
    (Instr.add rec0).wf = true ∧ (Instr.add { rec0 with fmt := 12 }).wf = false ∧ (Instr.add { rec0 with flags := 1 }).wf = false ∧
    (Instr.add { rec0 with a := immPort }).wf = false ∧ (Instr.qread { rec0 with flags := 1 }).wf = false ∧
    (Instr.qreadLocal rec0).wf = false ∧ (Instr.tld { rec0 with flags := 2 }).wf = false ∧ (Instr.tldStr rec0).wf = false ∧
    (Instr.tldTok rec0).wf = false ∧ (Instr.tst { rec0 with flags := 1 }).wf = false ∧ (Instr.tstTok rec0).wf = false := by decide
/-! ## Words written out from the encodings of R64 to R104, R400, R398, R454 and R456 -/

/-- ADD .n16.x2: F1 to port A of 0x0005, F2 to port B of 0x1100, A consume on queue 2, B sticky on queue 1, C unused, P consume on
queue 3, block 0x12. -/
theorem test_decode_add :
    (decodeRecord .pe ⟨0b0001000001110000#16, 0b1000000000000101#16, 0b1011000100000000#16, 0b0001000000000000#16,
      0b0100100000000000#16, 0b1100001100010010#16, 0, 0⟩).toOption
      = some (.add ⟨7, 0, ⟨true, .a, 5⟩, ⟨true, .b, 0x1100⟩, ⟨.consume, false, 0x1000⟩, ⟨.sticky, false, 0x0800⟩, noPort,
          ⟨.consume, 3⟩, 0x12, 0, 0⟩) := by decide

/-- WADV with DELTA 3 in bits 27 to 8 of the immediate of port B. -/
theorem test_decode_wadv :
    (decodeRecord .pe { f0 := 0x0600#16, f1 := 0x8001#16, f4 := 0xC000#16, f5 := 0xCC00#16, f6 := 0x0300#16 }).toOption
      = some (.wadv { rec0 with t0 := { valid := true, port := .a, addr := 1 }, f6 := 0x0300 }) := by decide

/-- CLTS .i16 on a pull port: F3 names the producer station 0x0ABC. -/
theorem test_decode_clts :
    (decodeRecord .pe { f0 := 0x3240#16, f3 := 0x8ABC#16, f5 := 0xCC00#16 }).toOption
      = some (.clts { rec0 with fmt := 4, a := { act := .pull, fe := false, low := 0x0ABC }, b := port0 }) := by decide

/-- CVTFI .i32 from .f16 under .rtz. -/
theorem test_decode_cvtfi :
    (decodeRecord .pe { f0 := 0x6102#16, f4 := 0xC001#16, f5 := 0xCC00#16 }).toOption
      = some (.cvtfi { rec0 with flags := 2, b := { immPort with low := 1 } }) := by decide

/-- ST .i16 at b3 with scope .sys, offset -4, PRED "?", OWN 5, last of its wave. -/
theorem test_decode_st :
    (decodeRecord .mem { f0 := 0x7140#16, f3 := 0x0380#16, f5 := 0xCC02#16, f6 := 0xFFFC#16, f7 := 0x7CA0#16 }).toOption
      = some (.st { rec0 with fmt := 4, a := { port0 with low := 0x0380 }, b := port0, block := 2, f6 := 0xFFFC, f7 := 0x7CA0 }) := by
  decide

/-- LDU .acq, and ACAS .ar with NR, port C consume. -/
theorem test_decode_orders :
    (decodeRecord .mem { f0 := 0x8004#16, f4 := 0xC000#16, f5 := 0xCC00#16 }).toOption = some (.ldu { rec0 with flags := 4 }) ∧
    (decodeRecord .mem { f0 := 0x990D#16, f5 := 0x0C00#16 }).toOption
      = some (.acas { rec0 with flags := 13, b := port0, c := { act := .consume, queue := 0 } }) := by decide

/-- QREAD.local is QREAD with F0[0] set, QREAD without. -/
theorem test_decode_qread :
    (decodeRecord .mem { f0 := 0xA401#16, f4 := 0xC000#16, f5 := 0xCC00#16 }).toOption = some (.qreadLocal { rec0 with flags := 1 }) ∧
    (decodeRecord .mem { f0 := 0xA400#16, f4 := 0xC000#16, f5 := 0xCC00#16 }).toOption = some (.qread rec0) := by decide

/-- JOIN MAXS with count 4, CHEXP, HOUT and XSEND. -/
theorem test_decode_elements :
    (decodeRecord .join { f0 := 0xAB03#16, f4 := 0xC000#16, f5 := 0xCC00#16, f6 := 4#16 }).toOption
      = some (.join { rec0 with flags := 3, f6 := 4 }) ∧
    (decodeRecord .chan { f0 := 0xB600#16, f4 := 0xC000#16, f5 := 0xCC00#16, f6 := 9#16 }).toOption = some (.chexp { rec0 with f6 := 9 }) ∧
    (decodeRecord .hostOut { f0 := 0xB800#16, f4 := 0xC000#16, f5 := 0xCC00#16 }).toOption = some (.hout rec0) ∧
    (decodeRecord .pe { f0 := 0xB900#16, f5 := 0xCC00#16 }).toOption = some (.xsend { rec0 with b := port0 }) := by decide

/-- VSHUF .f16 EXT with k 5, on a VE; the same word is of no class on a PE. -/
theorem test_decode_vshuf :
    (decodeRecord .ve { f0 := 0xD410#16, f3 := 0x0054#16, f5 := 0xCC00#16 }).toOption
      = some (.vshuf { rec0 with fmt := 1, a := { port0 with low := 0x54 }, b := port0 }) ∧
    why (decodeRecord .pe { f0 := 0xD410#16, f3 := 0x0054#16, f5 := 0xCC00#16 }) = some .klass := by decide

/-- TLD.str with acquire into t47, TMOV from t1 to t2, and MSEQ. -/
theorem test_decode_tiles :
    (decodeRecord .mem { f0 := 0xE106#16, f5 := 0xCC00#16, f7 := 0x002F#16 }).toOption
      = some (.tldStr { rec0 with flags := 6, b := port0, f7 := 0x2F }) ∧
    (decodeRecord .seqr { f0 := 0xE400#16, f4 := 0xC000#16, f5 := 0xCC00#16, f6 := 0x0201#16 }).toOption
      = some (.tmov { rec0 with f6 := 0x0201 }) ∧
    (decodeRecord .seqr { f0 := 0xEB00#16, f5 := 0xCC00#16 }).toOption = some (.mseq { rec0 with b := port0 }) := by decide

/-- CVT .e4m3 from .f32 on a converter, part 0, and SYSRD of b0's low half. -/
theorem test_decode_convert_system :
    (decodeRecord .conv { f0 := 0xF040#16, f4 := 0xC000#16, f5 := 0xCC00#16 }).toOption = some (.cvt { rec0 with fmt := 4 }) ∧
    (decodeRecord .pe { f0 := 0xF400#16, f4 := 0xC000#16, f5 := 0xCC00#16, f6 := 0x0100#16 }).toOption
      = some (.sysrd { rec0 with f6 := 0x0100 }) := by decide

/-- MMAP on z15, t47 and memory port 31, all flags, block scales bound to the tiles. -/
theorem test_decode_mmap :
    (decodeControl 0b00001000111110111101111111111001#32).toOption
      = some (.mmap ⟨15, 47, 31, true, true, true, true, true, 1⟩) ∧
    decodeTableWord 32 0x04000000 = some (.mma goodCtl) := by decide

/-- The write command of R74, the words of R68, and the address of the control commands. -/
theorem test_decode_commands :
    decodeCommand 0x0009A006#32 = .configWrite 1 1 0xA006 ∧ decodeCommand 0xFFF90000#32 = .patbegin 0 ∧
    decodeCommand 0xFFFA0021#32 = .recta 0x21 ∧ decodeCommand 0xFFFB03FF#32 = .rectb 0x3FF ∧
    decodeCommand 0xFFFC0000#32 = .patend 0 ∧ decodeCommand 0xFFFD0000#32 = .endStream 0 ∧
    decodeCommand 0xFFFE1234#32 = .chklo 0x1234 ∧ decodeCommand 0xFFFF5678#32 = .chkhi 0x5678 := by decide

/-- A LAUNCH with SPEC and priority 7, LOAD with PLACE, and CONTINUE, which q4 may not take. -/
theorem test_decode_packets :
    (decodePacket 0 ((0 : BitVec 416) ++ (0x000000FF : Word) ++ (0x99 : Word) ++ (0x00070101 : Word))).toOption
      = some (.launch { goodLaunch with spec := true, prio := 7, handle := 0x99, rect := 0xFF, classes := 0 }) := by decide +kernel

theorem test_decode_privileged :
    why (decodePacket 4 ((0 : BitVec 416) ++ (0x77 : Word) ++ (0x09 : Word) ++ (0x17 : Word))) = some .priv ∧
    (decodePacket 3 ((0 : BitVec 416) ++ (0x77 : Word) ++ (0x09 : Word) ++ (0x17 : Word))).toOption = some (.continuePkt 9 0x77) ∧
    (decodePacket 9 ((0 : BitVec 256) ++ (3 : Dword) ++ (2 : Dword) ++ (1 : Dword) ++ (0xC0 : Word) ++ (0x0105 : Word))).toOption
      = some (.loadPlace 0xC0 1 2 3) := by decide +kernel

theorem test_decode_writes :
    decodeWrite 0x10 [1, 0, 0, 0] = .fpprodWrite 1 ∧ decodeWrite 0x78 [5, 0, 0, 0x80] = .handoverGo 0x80000005 ∧
    decodeWrite 0x78 [0, 0, 0, 0x40] = .handoverEnd 0x40000000 ∧ decodeWrite 0x90 [0, 0, 0, 0x80] = .deviceReset ∧
    decodeWrite 0x13F00 [0, 0, 0, 0x80] = .qctlWrite 63 0x80000000 ∧ decodeWrite 0x13F18 [7, 0, 0, 0] = .evheadWrite 63 7 ∧
    decodeWrite 0x1047F [9] = .hintWrite 4 63 [9] ∧ decodeWrite 0x104BF [1] = .apertureSeal 4 ∧
    decodeWrite 0x103BF [1] = .registerWrite 0x103BF [1] ∧
    decodeWrite 0x21FF0 [1, 0, 0, 0, 2, 0, 0, 0, 0, 0, 0, 0, 0, 0, 0, 0] = .ingressRecord 63 7 1 2 := by decide

theorem test_decode_codes :
    decodeManage 0x05 [] = .setkey [] ∧ decodeManage 0x0B [1] = .unknownMgmtCode 0x0B ∧ decodeScan 0x03 = .extest ∧
    decodeScan 0xFF = .bypass 0xFF := by decide

/-- A reserved flag nibble, a reserved scope, an immediate port that a class does not allow and a station without a consume port are
refused, each at its field. -/
theorem test_decode_refused :
    why (decodeRecord .pe { f0 := 0x1001#16, f4 := 0xC000#16, f5 := 0xCC00#16 }) = some (.field 0) ∧
    why (decodeRecord .mem { f0 := 0x8000#16, f3 := 0x00A0#16, f4 := 0xC000#16, f5 := 0xCC00#16 }) = some (.field 3) ∧
    why (decodeRecord .pe { f0 := 0x0500#16, f4 := 0xC000#16, f5 := 0xCC00#16 }) = some (.field 4) ∧
    why (decodeRecord .pe { f0 := 0x1000#16, f4 := 0xC000#16, f5 := 0x8C00#16 }) = some (.field 5) ∧
    why (decodeRecord .pe { f0 := 0x1000#16, f3 := 0xC000#16, f4 := 0xC000#16, f5 := 0xCC00#16 }) = some .consume := by decide



/-! ## The hypotheses of the statements are met: firings -/

/-- RoutingFirings, TagFirings and every statement whose only hypothesis is that port P does not suppress the firing. -/
theorem test_met_routing :
    (∃ s : State, s.cur.go = true ∧ s.cur.b.word.getLsbD 0 = true ∧ s.cur.c.word.getLsbD 0 = true ∧ s.cur.port = .a) ∧
    (∃ s : State, s.cur.go = true ∧ s.cur.b.word.getLsbD 0 = false ∧ s.cur.c.word.getLsbD 0 = false ∧ s.cur.port = .b) :=
  ⟨⟨at_ { b := .narrow 1, c := .narrow 1 }, by decide⟩, ⟨at_ { port := .b }, by decide⟩⟩

/-- CoordWord: a context of one cluster, and cluster 63 of the whole device. -/
theorem test_met_coord :
    ∀ p ∈ [(unit, 0), (whole, 63)], ∃ (s : State) (k : Ctx), s.cur.go = true ∧ s.cur.cluster = p.2 ∧
      s.ctxAt s.cur.cluster (tagCtx s.cur.tag) = some k ∧ k.rect = p.1 ∧
      k.rect.legal = true ∧ k.rect.contains s.cur.cluster = true ∧ s.cur.cluster < 64 ∧ k.rect.lw < 4 ∧ k.rect.lh < 4 := by
  intro p hp
  simp only [List.mem_cons, List.not_mem_nil, or_false] at hp
  obtain rfl | rfl := hp
  · exact ⟨{ at_ {} with contexts := [ctx unit] }, ctx unit, by decide⟩
  · exact ⟨{ at_ { cluster := 63 } with contexts := [ctx whole] }, ctx whole, by decide⟩

/-- A state in which station 0 of cluster 0 holds an ADD that reads both ports from tokens. -/
def linked (w : Word) : State :=
  { reg0 (at_ { b := .narrow w }) (fun r => { r with
      records := [(0, { f0 := 0x1000#16, f5 := 0xCC00#16 })],
      residents := [{ tag := 1, addrs := [0], used := 0 }] }) with contexts := [ctx unit] }

/-- ControlTraps: a link word of a legal place, and one of a port that does not exist. -/
theorem test_met_link :
    (linked 0xA000).linkOk 0 0 0xA000 = true ∧ (linked 0xA001).linkOk 0 0 0xA001 = false := by decide

/-- SystemRegisterAccess: each register number and both ends of the base slots. -/
theorem test_met_system_numbers :
    ∀ n ∈ [0, 2, 3, 4, 5, 0x100, 0x2FF], ∃ s : State, s.cur.go = true ∧ s.cur.b.word.toNat = n := by
  intro n hn
  exact ⟨at_ { b := .narrow (BitVec.ofNat 32 n) }, by
    simp only [List.mem_cons, List.not_mem_nil, or_false] at hn
    obtain rfl | rfl | rfl | rfl | rfl | rfl | rfl := hn <;> decide⟩

/-- SystemReads: BRKEN 0 and 1, and features 11 and 12. -/
theorem test_met_system_reads :
    (∃ s : State, s.cur.go = true ∧ ((s.consume 0xF3 rec0).region s.cur.cluster).brken.getLsbD 0 = false ∧
      s.cur.b.word.toNat < 12) ∧
    (∃ s : State, s.cur.go = true ∧ ((s.consume 0xF3 rec0).region s.cur.cluster).brken.getLsbD 0 = true ∧
      12 ≤ s.cur.b.word.toNat) :=
  ⟨⟨at_ { b := .narrow 11 }, by decide⟩, ⟨reg0 (at_ { b := .narrow 12 }) (fun r => { r with brken := 1 }), by decide⟩⟩

/-- CarryChains and IntegerDivision: an unpacked type, with divisor 0, with divisor -1 and with another; UNPK and ADDP: both widths,
and a packed type. -/
theorem test_met_integer :
    (∃ r : Rec, (laneType r.fmt).packed = false ∧ (laneType r.fmt).w = 32) ∧
    (∃ r : Rec, (laneType r.fmt).packed = true ∧ (laneType r.fmt).w = 16) ∧
    (∃ r : Rec, (laneType r.fmt).packed = true ∧ (laneType r.fmt).w = 8) ∧
    (∃ s : State, s.cur.go = true ∧ s.cur.a.word = 0x80000000 ∧ intAt (laneType 0) s.cur.b.word 0 = -1) ∧
    (∃ s : State, s.cur.go = true ∧ s.cur.a.word = 7 ∧ intAt (laneType 0) s.cur.b.word 0 = 0) :=
  ⟨⟨rec0, by decide⟩, ⟨{ rec0 with fmt := 5 }, by decide⟩, ⟨{ rec0 with fmt := 9 }, by decide⟩,
    ⟨at_ { a := .narrow 0x80000000, b := .narrow 0xFFFFFFFF }, by decide⟩, ⟨at_ { a := .narrow 7 }, by decide⟩⟩

/-- FloatArithmetic, FloatSpecials and FloatCompareAndClass: f32, and bf16 on two lanes. -/
theorem test_met_float :
    PeFloat rec0 ∧ PeFloat { rec0 with fmt := 2, flags := 1 } ∧ (State.reset.cur.go = true) := by
  refine ⟨⟨?_, ?_⟩, ⟨?_, ?_⟩, ?_⟩ <;> decide

/-- FloatSpecials: each kind of operand, as f32 encodings. -/
theorem test_met_float_values :
    numAt 0 0x7FC00000 0 = .nan ∧ numAt 0 0x7F800000 0 = .inf false ∧ numAt 0 0xFF800000 0 = .inf true ∧
    (numAt 0 0x80000000 0).isZero = true ∧ (∃ m e k, numAt 0 0xBF800000 0 = .fin true m e k ∧ m ≠ 0) ∧
    (∃ m e, numAt 0 0x3F800000 0 = .fin false m e false ∧ m ≠ 0) := by
  refine ⟨by decide, by decide, by decide, by decide, ⟨2 ^ 23, -23, false, by decide⟩, ⟨2 ^ 23, -23, by decide⟩⟩

/-- ExactResultsAreKept: the ends of its ranges. -/
theorem test_met_exact :
    (5 : Nat) ≤ 5 ∧ (4 : Nat) ≤ 4 ∧ 65535 < 65536 ∧ 0x7B < 2 ^ (floatFormat 5).bits ∧ decodeFloat 5 0x7B ≠ .nan ∧
    decodeFloat 0 0x80000000 ≠ .nan := by decide

/-- ScalarConversions: the source and destination codes of each clause. -/
theorem test_met_scalar_conversions :
    (laneType (0 : BitVec 4)).packed = false ∧
    (∃ r : Rec, r.fmt.toNat ≤ 2 ∧ r.src ≤ 2 ∧ (r.flags.getLsbD 0 = true ∧ r.fmt.toNat ≠ 0 ∧ r.src ≠ 0)) ∧
    numAt 2 0x7F80 0 = .inf false ∧ numAt 2 0x7FC0 0 = .nan :=
  ⟨by decide, ⟨{ rec0 with fmt := 1, flags := 1, b := { immPort with low := 2 } }, by decide⟩, by decide, by decide⟩

/-- VectorArithmetic, VectorFunctions: the format codes; VectorMoves: each mode and bound; VectorReductions: each kind. -/
theorem test_met_vector :
    (∃ r : Rec, r.fmt.toNat = 3 ∧ r.sel % 8 = 4 ∧ r.sel / 16 % 128 = lanesOf 3) ∧
    (∃ r : Rec, r.fmt.toNat = 0 ∧ r.sel % 8 = 5 ∧ r.flags.getLsbD 0 = true) ∧
    (∀ m, m ≤ 3 → ∃ r : Rec, r.fmt.toNat = 6 ∧ r.sel % 8 = m) ∧
    (∃ r : Rec, r.fmt.toNat = 6 ∧ r.sel % 4 = 2 ∧ r.sel / 4 % 8 < 2 ^ (r.sel % 4 + 1)) :=
  ⟨⟨{ rec0 with fmt := 3, a := { port0 with low := 0x104 } }, by decide⟩,
    ⟨{ rec0 with flags := 1, a := { port0 with low := 5 } }, by decide⟩,
    fun m hm => ⟨{ rec0 with fmt := 6, a := { port0 with low := BitVec.ofNat 13 m } }, by
      have : m = 0 ∨ m = 1 ∨ m = 2 ∨ m = 3 := by omega
      obtain rfl | rfl | rfl | rfl := this <;> decide⟩,
    ⟨{ rec0 with fmt := 6, a := { port0 with low := 0x1E } }, by decide⟩⟩

/-- VectorConversions: VDEQ, VQUANT with its three scale modes and a NaN lane, CVT with and without a saturated lane. -/
theorem test_met_vector_conversions :
    (∃ r : Rec, r.fmt.toNat ≤ 2 ∧ 4 ≤ r.src ∧ r.src = 6 ∧ r.sel / 8 % 2 = 1) ∧
    (∀ m, m ≤ 2 → ∃ r : Rec, 4 ≤ r.fmt.toNat ∧ r.fmt.toNat ≤ 6 ∧ r.src ≤ 2 ∧ r.sel / 4 % 4 = m) ∧
    decodeFloat 1 (laneAt 1 (0x7E00 : Wide) 0) = .nan ∧
    (∃ r : Rec, r.fmt.toNat = 5 ∧ r.src = 0 ∧ r.rnd = 3) ∧
    clipBound 0 0x3F800000 ≠ none ∧ clipBound 0 0xFFC00000 = none :=
  ⟨⟨{ rec0 with b := { immPort with low := 6 }, a := { port0 with low := 8 } }, by decide⟩,
    fun m hm => ⟨{ rec0 with fmt := 5, a := { port0 with low := BitVec.ofNat 13 (4 * m) } }, by
      have : m = 0 ∨ m = 1 ∨ m = 2 := by omega
      obtain rfl | rfl | rfl := this <;> decide⟩,
    by decide +kernel, ⟨{ rec0 with fmt := 5, flags := 6 }, by decide⟩, by decide, by decide⟩

/-! ## The hypotheses of the statements are met: memory, joins, copies, channels, tiles, matrix, streams -/

/-- A block record of 3 operations, window 1 and no exits, and an open wave of it. -/
def ordered (drained : Bool) : State :=
  live (reg0 (at_ {}) (fun r => { r with
    records := [(0x1800, { f0 := 0x0310#16, f2 := 0x000E#16 })], waves := [{ block := 0, tag := 0, drained := drained }] }))

/-- OrderedRequests and AtomicAndQuarryRequests: a wave that is open, in a block with operations; no wave, in a block without. -/
theorem test_met_ordered :
    (NotDrained rec0 (ordered false) ∧ (ordered false).cur.go = true ∧
      (match (ordered false).block? 0 0 with | some b => b.count | none => 0) = 3) ∧
    (NotDrained rec0 (at_ { go := false }) ∧ (at_ { go := false }).cur.go = false ∧ (at_ {}).block? 0 0 = none) := by
  refine ⟨⟨?_, by decide, by decide⟩, ⟨?_, by decide, by decide⟩⟩
  · intro w h
    exact (Option.some.inj h) ▸ rfl
  · intro w h
    cases (show (none : Option Wave) = some w from h)

def round0 (seen : Nat) : Round :=
  { station := 0x1300, tag := 0, group := 0, count := 4, seen := seen, part := 5, parts := [], bad := false }

/-- A join station in hand with a count, in a context of one cluster, with the rounds given. -/
def joining (n : Word) (rounds : List Round) : State :=
  live (reg0 (at_ { station := 0x1300, b := .narrow n }) (fun r => { r with
    records := [(0x1300, (rec0.toRaw 0xAB))], rounds := rounds }))

/-- JoinFirings: a legal group, one that is not, a count of 0. -/
theorem test_met_groups :
    groupOk ((joining 0 []).rectOf 0 0) 0 0 = true ∧ groupOk ((joining 0 []).rectOf 0 0) 0 0x3FF = false ∧
    (joining 0 []).cur.go = true := by decide

/-- JoinFirings: a first arrival, one that disagrees, one that is folded and one that ends the round. -/
theorem test_met_rounds :
    (((joining 4 []).consume 0xAB rec0).region 0).rounds = [] ∧
    (((joining 5 [round0 1]).consume 0xAB rec0).region 0).rounds = [round0 1] ∧
    (((joining 4 [round0 1]).consume 0xAB rec0).region 0).rounds = [round0 1] ∧
    (let u := (joining 4 [round0 3]).consume 0xAB rec0
     (u.region 0).rounds = [round0 3] ∧ groupClusters (u.rectOf 0 0) 0 = [0] ∧ u.runs 0 0 = true ∧
       u.recAt 0 0x1300 = rec0) := by
  refine ⟨?_, ?_, ?_, ?_⟩ <;> decide

/-- ChannelAndHostNodes: no binding, a binding of another element, a flag table, an ingress record; devices known and unknown. -/
def channelState (a b : Word) (other : Bool) : State :=
  let s := reg0 (at_ { station := 0x1380, a := .narrow a, b := .narrow b }) (fun r => { r with
    bindings := if other then [(0x1381, { channel := 5, exp := 1, phase := 0, flag := false, value := 0, tag := 0 })] else [] })
  { s with regs := { s.regs with flagbase := 0x10000, route := [(7, 1)], devid := 3 } }

theorem test_met_channels :
    (Table.wf (channelState 1 5 false).regions = true ∧ (channelState 1 5 false).holderOf 5 = none ∧
      (channelState 1 5 false).regs.flagbase ≠ 0 ∧ (at_ {}).regs.flagbase = 0) ∧
    (channelState 1 5 true).holderOf 5 = some (0, 0x1381) ∧
    (∀ p ∈ [(none, false), (some 1, true)], ({ at_ {} with regs := { hostat := 2 }, lentPage := p.1 } : State).inLentPage 0x10000 = p.2) ∧
    (∀ n, n < 8 → (at_ { station := 0x1910 + n }).cur.station = 0x1910 + n) := by
  refine ⟨by decide, by decide, by decide, fun n _ => rfl⟩

/-- XSEND: to a known device; with a reserved bit, to an unknown device and to the own device. -/
theorem test_met_xsend :
    (channelState 0 7 false).regs.route.getD 7 0 ≠ 0 ∧ (7 : Word).toNat / 2 ^ 21 = 0 ∧
    (0x200007 : Word).toNat / 2 ^ 21 ≠ 0 ∧ (channelState 0 8 false).regs.route.getD 8 0 = 0 ∧
    (channelState 0 3 false).regs.devid.toNat % 4096 = 3 := by decide

/-- TileFirings: legal and illegal control words of tiles and accumulators; a scale plane in use or not; row words 255 and 256. -/
theorem test_met_tiles :
    tileWordOk 0x0FFF = true ∧ tileWordOk 0x70FFF = false ∧ accWordOk 0x3FFF = true ∧ accWordOk 0x7FFF = false ∧
    ctrlScaled ((at_ {}).ctrlOf 0 0) = false ∧
    ctrlScaled ((reg0 (at_ {}) (fun r => { r with tiles := [(0, { ctrl := 0x48FFF })] })).ctrlOf 0 0) = true ∧
    (255 : Word).toNat < 256 ∧ 256 ≤ (256 : Word).toNat := by decide

def regOp (act : RegAct) (reads writes : List (BitVec 7)) (begun : Bool) : RegOp :=
  { id := 3, station := 0x1100, tag := 0, reads := reads, writes := writes, fe := false, begun := begun, release := false,
    acquire := false, act := act, agen := 0, a := 0, b := 0 }

/-- A live context whose tile file holds one operation, with a tile and an accumulator in a state of 4 rows of 4 f32 elements. -/
def waiting (o : RegOp) (s : State) : State :=
  live (reg0 s (fun r => { r with
    regOps := [o], tiles := [(1, { ctrl := 0x183, bytes := [(0, 7)] })], accs := [(0, { ctrl := 0x183, bytes := [(0, 7)] })] }))

/-- RegisterOperations: an operation that waits and one in progress. -/
theorem test_met_register_operation :
    (let s := waiting (regOp .tzero [1] [2] false) (at_ {})
     s.ctxAt 0 0 = some (ctx unit) ∧ s.specOf 0 0 = none ∧ (s.region 0).halted = false ∧
       ∀ x ∈ ([1, 2] : List (BitVec 7)), s.isFull 0 x = true) ∧
    (at_ {}).early 0 (regOp .tzero [1] [2] false) = false ∧
    (let s := waiting (regOp (.tld 0 0 0 true) [] [2] true) (at_ { id := 3 })
     (s.region 0).regOps.find? (fun p => p.id == s.cur.id && p.begun) = some (regOp (.tld 0 0 0 true) [] [2] true) ∧
       (regOp (.tld 0 0 0 true) [] [2] true).isMma = false) ∧
    (let s := waiting (regOp (.arm 0 0 0 2 true) [1] [] false) (at_ {})
     (s.region 0).slots.get? 2 = none ∧ (s.region 0).regOps = [regOp (.arm 0 0 0 2 true) [1] [] false] ∧ s.isFull 0 1 = true) := by
  decide

/-- RegisterOperations: the operands of TLD.tok at row 3, TTRN, TST.tok and ZCVT. -/
theorem test_met_register_operands :
    (3 : Word).getLsbD 7 = false ∧ (3 : Word).toNat % 128 < ctrlRows 0x183 ∧ Bytes.wf [(0, 7)] = true ∧
    ctrlScaled 0x183 = false ∧ tileWordOk 0x183 = true ∧ ctrlRows 0x183 * elementBits (ctrlFmt 0x183) ≤ 1024 ∧
    Machine.isAcc 1 = false ∧ Machine.isAcc 0x40 = true := by decide

theorem test_met_zcvt : ∃ p, convertedAcc ({ ctrl := 0 } : Acc) 0 0 = some p := ⟨_, rfl⟩

/-- MatrixTokens: MSEQ counts 0, 1 and 255, a reserved bit; a partner inside and outside of the rectangle. -/
theorem test_met_matrix_firings :
    (∀ n ∈ [(0, true), (1, false), (255, false), (2 ^ 27 + 1, true)], ((BitVec.ofNat 32 n.1 : Word).toNat % 256 = 0 ∨
      (BitVec.ofNat 32 n.1 : Word).toNat / 2 ^ 27 ≠ 0 ↔ n.2 = true)) ∧
    (live (reg0 (at_ {}) (fun r => { r with records := [(0, rec0.toRaw 0xEB)] }))).recAt 0 0 = rec0 ∧
    (let s : State := { at_ {} with contexts := [ctx whole] }
     (s.rectOf 0 0).contains 1 = true ∧ ((1 % 8 : Nat) : Int) = (0 % 8 : Nat) + ((0x10 : BitVec 8).extractLsb' 4 4).toInt) ∧
    ((live (at_ {})).rectOf 0 0).contains 1 = false := by decide

/-- MatrixTokens: DRAIN of an open wave, of a closed one and of none; a free MO with a token in range and out of range. -/
theorem test_met_matrix_tokens :
    (∃ w, (ordered false).wave? 0 0 0 = some w ∧ w.isOpen = true) ∧ (at_ {}).wave? 0 0 0 = none ∧
    ((at_ {}).mo 0 0).run = none ∧ ((at_ {}).region 0).regOps = [] ∧ goodCtl.zidx.toNat ≤ 15 ∧
    ¬ ({ goodCtl with zidx := 16 } : Ctl).zidx.toNat ≤ 15 ∧ (at_ { pair := some (0x1280, 0x10) }).cur.pair.isSome = true :=
  ⟨⟨_, rfl, by decide⟩, by decide, by decide, by decide, by decide, by decide, by decide⟩

def tokenWord (mmap : Bool) : Word := goodCtl.toWord (if mmap then 2 else 1)

def runOf (mmap : Bool) : MoRun :=
  { token := { word := tokenWord mmap, tag := 0, pair := if mmap then some (0x1280, 0x10) else none }, opId := 3, shadow := {},
    partner := mmap, faulted := none, stream := [], rows := 0 }

/-- MatrixEvents: an MMA in flight that completes. -/
theorem test_met_mma :
    let s := waiting (regOp (.mma 0) [0] [0x40] true) (at_ { index := 3 })
    let s := s.updMo 0 0 (fun m => { m with run := some (runOf false) })
    (s.mo 0 s.cur.id).run = some (runOf false) ∧ (runOf false).opId = s.cur.index ∧
      isMmap (runOf false).token.word = false ∧ (runOf false).shadow.bytes.wf = true := by decide

/-- The halves of a pair on clusters 0 and 1, sent by their sequencers with offsets (1, 0) and (-1, 0). -/
def paired (agree : Bool) : State :=
  let other : MoRun := { runOf true with
    token := { word := tokenWord true, tag := 0, pair := some (0x1280, 0xF0) },
    shadow := if agree then {} else { ctrl := 0 } }
  { at_ { cluster := 1, index := 0, id := 0, pair := some (0x1280, 0x10) } with
    regions := [(0, { Region.reset with mos := [(0, { run := some (runOf true) })] }),
                (1, { Region.reset with mos := [(0, { run := some other })] })] }

/-- MatrixEvents: halves that agree and halves that do not. -/
theorem test_met_pair :
    ∀ agree : Bool, ∃ other : MoRun,
      ((paired agree).mo 0 0).run = some (runOf true) ∧ (paired agree).partnerMo 1 0x1280 0 0x10 = some (0, other) ∧
      other.partner = true ∧ (runOf true).token.tag = (paired agree).cur.tag ∧ (runOf true).token.pair = (paired agree).cur.pair ∧
      (paired agree).cur.index ≠ (paired agree).cur.cluster ∧
      halvesAgree (ctlFields (tokenWord true)) (ctlFields other.token.word) ((paired agree).operandA 0 (ctlFields (tokenWord true)))
        ((paired agree).operandB 0 (ctlFields (tokenWord true)) (runOf true))
        ((paired agree).operandA 1 (ctlFields other.token.word))
        ((paired agree).operandB 1 (ctlFields other.token.word) other) (runOf true).shadow other.shadow = agree := by
  intro agree
  cases agree <;> exact ⟨_, rfl, rfl, rfl, rfl, rfl, by decide, by decide⟩

def req0 (kind : ReqKind) (va : Dword) (stage : Stage) : MemReq :=
  { id := 9, cluster := 0, station := 0x1100, tag := 0, kind := kind, va := va, stage := stage }

/-- MatrixEvents: a streamed fault, and a step of an expansion. -/
theorem test_met_stream_fault_and_step :
    (let s := { live (reg0 (at_ { id := 9, index := 0 }) (fun r => { r with mos := [(0, { run := some (runOf false) })] })) with
        reqs := [req0 (.streamRead 0) 0 (.held .page)] }
     s.req? 9 = some (req0 (.streamRead 0) 0 (.held .page)) ∧ (s.mo 0 0).run = some (runOf false) ∧
       s.ctxAt 0 0 = some (ctx unit) ∧ (ctx unit).spec = false ∧ (runOf false).token.pair = none) ∧
    (let e : Expansion := { id := 3, station := 0x1280, template := 0, step := 4, tag := 0, next := 3 }
     let s := live (reg0 (at_ { id := 3 }) (fun r => { r with expansions := [e] }))
     (s.region 0).expansions.find? (fun e => e.id == 3) = some e ∧ s.runs 0 0 = true ∧ (s.region 0).blocked = []) := by decide

/-! ## The hypotheses of the statements are met: streams, events, memory -/

def launch0 : Launch :=
  { id := 1, queue := 0, pseq := 1, handle := 1, object := 1, rect := unit, args := [], binds := [], classes := 0, prio := 0,
    notify := false, mayspec := false, step := 0, steps := 0, image := 0, start := 0, counted := 0, wdog := 100000, barked := false,
    qctl := 0x80500000, root := 0x10000, l1quota := 1024, vquota := 256, spec := false, claimed := false, killed := false,
    began := 0 }

/-- Page tables from 0x10000, by the layout of R315 to R317, as lines of an L2: the first GiB is uncached, the second cacheable, both
where they are, and the third empty. -/
def pages : Table L2Line :=
  [(0x200, { data := 0x20001, dirty := true }), (0x400, { data := 0x400000C700000000000000CF, dirty := true })]

/-- Page tables from 0x10000 for slot 0 of cluster 0's aperture, a page at 0x50000. -/
def vaultPages : Table L2Line :=
  [(0x3FF, { data := 0x20001 <<< 960, dirty := true }), (0x41F, { data := 0x30001 <<< 896, dirty := true }),
   (0x600, { data := 0x40001, dirty := true }), (0x800, { data := 0x500D7, dirty := true })]

/-- A live context of a launch under those tables, with one request. -/
def paged (q : MemReq) (f : Region → Region) : State :=
  { live (reg0 (at_ { id := 9 }) f) with dies := [(0, { l2 := pages })], launches := [launch0], reqs := [q] }

def delivery0 (phase : StreamPhase) : Delivery :=
  { words := [], phase := phase, summed := [], tag := 7, records := [], written := [], amend := false, job := 0 }

/-- The checksum of R70 over the check string of IEEE 802.3's CRC-32, and over BEGIN 7 and END. -/
theorem test_crc :
    crc32 [0x31, 0x32, 0x33, 0x34, 0x35, 0x36, 0x37, 0x38, 0x39] = 0xCBF43926 ∧
    crc32 (bytesOfNat 4 0xFFF80007 ++ bytesOfNat 4 0xFFFD0000) = 0xD052FAF5 := by decide +kernel

/-- StreamCommands: no delivery; the phases; rectangles and body writes at their bounds; a checksum that is right, with a
configuration that passes and one that does not. -/
theorem test_met_stream :
    ((at_ {}).region 0).delivery = none ∧
    (∀ p ∈ [StreamPhase.start, .body, .ended, .pattern [] none [], .pattern (List.replicate 15 (0, 0)) none [],
        .pattern (List.replicate 16 (0, 0)) none [], .pattern [] (some 0x21) [],
        .pattern [(0, 0)] none (List.replicate 31 0), .pattern [(0, 0)] none (List.replicate 32 0), .checked 0],
      ((reg0 (at_ {}) (fun r => { r with delivery := some (delivery0 p) })).region 0).delivery = some (delivery0 p)) ∧
    populated 0x12C4 0 = false ∧ populated 0x1FFE 0 = false ∧ populated 0x1900 3 = false ∧ populated 0 0 = true ∧
    (0x3FF : Half).toNat / 32 ≥ (0x21 : BitVec 10).toNat / 32 ∧ (0x3FF : Half).toNat < 1024 := by
  refine ⟨by decide, ?_, by decide, by decide, by decide, by decide, by decide, by decide⟩
  intro p _
  rfl

theorem test_met_stream_end :
    (let d : Delivery := { delivery0 (.checked 0xFAF5) with summed := bytesOfNat 4 0xFFF80007 ++ bytesOfNat 4 0xFFFD0000 }
     (0xD052 : Half) ++ (0xFAF5 : Half) = crc32 d.summed ∧
       configStatus ((at_ {}).streamConfig 0 d) d.outside d.written ((at_ {}).heldByOthers 0 d) = 0) ∧
    (let d : Delivery := { delivery0 (.checked 0) with records := [(0, { f0 := 0x3B00#16 })], written := [0] }
     configStatus ((at_ {}).streamConfig 0 d) d.outside d.written ((at_ {}).heldByOthers 0 d) ≠ 0) := by decide +kernel

def token0 (st : Nat) : Token := { cluster := 0, station := st, port := .a, kind := .data, value := .narrow 5, tag := 0 }

/-- FabricEvents: a live context and none, a stub, a station, an MO control port and an export port. -/
theorem test_met_arrival :
    (at_ {}).ctxAt 0 0 = none ∧ (live (at_ {})).ctxAt 0 0 = some (ctx unit) ∧
    ((reg0 (at_ {}) (fun r => { r with stubs := [(4, 8)] })).region 0).stubs.get? 4 = some 8 ∧
    placeOf 0 = .station .pe ∧ placeOf 0x12C3 = .moControl ∧ placeOf 0x17FF = .exportPort ∧
    (ctx unit).killed = false ∧ bringsWave ((live (at_ {})).opAt 0 0) ((live (at_ {})).recAt 0 0) = false ∧ ((at_ {}).region 0).stalled = [] ∧
    (live (at_ {})).actionAt 0 0 .a ≠ .sticky ∧ ((at_ {}).region 0).store = [] ∧ 0 < storeSize 0 := by decide

/-- FabricEvents: a stub whose station has its queue for itself, with a credit free and with none; one that leads to the same queue. -/
theorem test_met_stub :
    (∀ n ∈ [7, 8], let s := live (reg0 (at_ { token := token0 4, index := 32 }) (fun r => { r with stubs := [(4, 8)], inUse := [(64, n)] }))
      s.queueKey 0 8 .a = 64 ∧ s.hasCredit 0 64 = decide (n = 7)) ∧
    (let s := live (reg0 (at_ { token := token0 4, index := 64 }) (fun r => { r with stubs := [(4, 8)] }))
     s.queueKey 0 8 .a = s.cur.index) := by decide

/-- FabricEvents: a result that waits for a credit; a waiting station after 65,536 cycles with an edge; a probe at its origin and
above it. -/
theorem test_met_waiting :
    let s := { live (reg0 (at_ { station := 4, index := 5 * 8 }) (fun r => { r with
      blocked := [(4, token0 20)], waits := [(4, 0)] })) with cycle := 65536 }
    (s.region 0).blocked.find? (fun b => s.queueKey 0 b.2.station b.2.port == 160) = some (4, token0 20) ∧
    s.isWaiting 0 4 = true ∧ (s.region 0).waits.getD 4 s.cycle + 65536 ≤ s.cycle ∧
    (s.waitEdges 0 4).filter (fun e => s.probes 0 e.2) = [(20, 0)] ∧ ((at_ {}).waitEdges 0 4) = [] ∧ s.probes 0 s.cur.tag = true ∧
    tagCtx ((20, (0 : Word)) : Nat × Word).2 = tagCtx s.cur.tag ∧ tagCtx (0x05000000 : Word) ≠ tagCtx ((20, (0 : Word)) : Nat × Word).2 ∧
    (s.region 0).arbSince + 256 ≤ s.cycle := by decide

/-- FabricEvents: an export inside and outside of the rectangle, its acknowledgement here and of an XSEND. -/
theorem test_met_export :
    (let w : RawRecord := { f0 := 1, f4 := 0x0010#16 }
     w.offsets.1.toInt = 1 ∧ w.offsets.2.toInt = 0 ∧ (ctx whole).rect.contains 1 = true ∧ (ctx unit).rect.contains 1 = false ∧
       (Target.ofHalf w.f1).valid = false ∧ (Target.ofHalf ({ w with f1 := 0x8000#16 } : RawRecord).f1).valid = true) ∧
    (∀ n ∈ [7, 8], ({ at_ {} with regions := [(1, { Region.reset with inUse := [(0, n)] })] } : State).hasCredit 1 0 = decide (n = 7)) ∧
    (at_ {}).resolve 1 0 = 0 ∧ (at_ {}).queueKey 1 0 .a = 0 ∧
    (let e : SpanOut := { id := 3, device := 7, cluster := 0, station := 0, tag := 0,
                          rec0 := { cluster := 0, node := 0, value := 0, wtag := 0 } }
     ({ live (at_ { id := 3 }) with spanOut := [e] }).spanOut.find? (fun e => e.id == 3) = some e) := by decide

/-- FabricEvents: an idle open wave of a block without exits, and a closed, finished one. -/
theorem test_met_quiescence :
    ∀ b : Bool, let s := live (reg0 (at_ {}) (fun r => { r with
        records := [(0x1800, { f0 := 0x0010#16 })], waves := [{ block := 0, tag := 0, isOpen := b, finished := !b }] }))
      (∃ w, s.wave? 0 0 0 = some w ∧ w.drained = false ∧ w.isOpen = b) ∧ (s.region 0).halted = false ∧
      s.blockBusy 0 0 0 = false ∧ (∃ k, s.block? 0 0 = some k ∧ k.exits = 0) := by
  intro b
  cases b <;> exact ⟨⟨_, rfl, by decide, by decide⟩, by decide, by decide, ⟨_, rfl, by decide⟩⟩

/-- ContextEvents: a sweep at 62 and at 63; seeds due; counts zero, discarded or complete; one enabled seed port; no token on its
way. -/
theorem test_met_context :
    (∀ n ∈ [62, 63], ((reg0 (at_ {}) (fun r => { r with swept := false, sweep := n })).region 0).sweep = n) ∧
    (let k : Ctx := { ctx unit with seeded := false }
     let s := { at_ { id := 1 } with contexts := [k], launches := [launch0] }
     s.contexts.find? (fun k => k.id == 1) = some k ∧ s.launchOf k = some launch0 ∧ s.jobs = [] ∧ launch0.wdog ≠ 0 ∧
       ∀ d ∈ k.rect.clusters, (s.region d).swept = true ∧ (s.region d).halted = false ∧ (s.region d).draining = false) ∧
    (let s := { live (at_ { id := 1 }) with launches := [launch0] }
     s.countsZero (ctx unit) = true ∧ s.heldInRing (ctx unit) = false ∧ s.launchOf (ctx unit) = some launch0 ∧ s.object? launch0.object = none) ∧
    (let s := reg0 (at_ {}) (fun r => { r with
       records := [(0x1902, { f0 := 1 })], residents := [{ tag := 1, addrs := [0x1902], used := 0 }] })
     (List.range 16).filter (fun m => (((s.region 0).residents.find? (fun e => e.tag == (1 : Half))).map
          (fun e => e.addrs.contains (0x1900 + m))).getD false && (s.raw 0 (0x1900 + m)).enabled) = [2]) ∧
    (at_ {}).agenda = [] ∧ (∀ e ∈ ((at_ {}).region 0).store, e.left = none) := by decide

/-- Stations 0 and 4 of a region after a period of 4,096 cycles, the one with its queue full and its element firing in every cycle. -/
def crowded : State :=
  { live (reg0 (at_ {}) (fun r => { r with
      records := [(0, { f0 := 0x1000#16, f4 := 0xC000#16, f5 := 0xCC00#16 })], residents := [{ tag := 1, addrs := [0], used := 0 }],
      occupied := [(0, 8 * 4096)], fired := [(0, 4096)] })) with cycle := 4096 }

/-- ContextEvents: a period in progress, one that has passed, a station that qualifies and the place it goes to. -/
theorem test_met_migration :
    let p := crowded.cycle - (crowded.region 0).movedAt
    let fired := fun (n : Nat) => (crowded.region 0).fired.getD (elementOf n) 0
    let held := fun (n : Nat) => (((crowded.queuesOf 0 n).map (fun k => (crowded.region 0).occupied.getD k 0)).sum,
      (crowded.queuesOf 0 n).length)
    4096 ≤ p ∧ (at_ {}).cycle < 4096 ∧ crowded.mayMigrate 0 = true ∧ (crowded.region 0).records.wf = true ∧
    (crowded.movable 0).filter (fun n => decide (0 < (held n).2) && decide (6 * p * (held n).2 ≤ (held n).1)
      && decide (7 * p ≤ 8 * fired n)) = [0] ∧
    (crowded.region 0).canMove 0 1 = true ∧ (at_ {}).movable 0 = [] := by decide +kernel

/-- MemoryEvents: an operation whose turn has come, one that waits, one of a closed wave. -/
theorem test_met_buffer :
    (let q : MemReq := { req0 .load 0 .buffered with own := 1 }
     let s := { ordered false with reqs := [q] }
     s.req? 9 = some q ∧ s.canIssue q = true ∧ (s.region 0).halted = false) ∧
    (let q : MemReq := { req0 .load 0 .buffered with own := 2, pred := 1 }
     { ordered false with reqs := [q] }.canIssue q = false) ∧
    (∃ w, (ordered true).wave? 0 0 0 = some w ∧ w.drained = true) :=
  ⟨by decide, by decide, ⟨_, rfl, by decide⟩⟩

/-- A result that is there and meets a condition. -/
def okAnd {ε α : Type} (x : Except ε α) (p : α → Bool) : Bool := match x with | .ok v => p v | .error _ => false

/-- A fault that meets a condition. -/
def errAnd {ε α : Type} (x : Except ε α) (p : ε → Bool) : Bool := match x with | .ok _ => false | .error e => p e

def someAnd {α : Type} (x : Option α) (p : α → Bool) : Bool := match x with | some v => p v | none => false

/-- What a lookup comes to where nothing is cached: the walk. -/
def plainLook (s : State) (c : Nat) (g : Word) (root va : Nat) : Walk × List Nat :=
  if 2 ^ 52 ≤ va then (.fault .page false, [])
  else if inReserve va then (.fault .access false, [])
  else (s.walkFor c g root va, s.entriesFor c g root va)

def plainTranslate (s : State) (c : Nat) (g : Word) (root va : Nat) (write : Bool) : Except (Option Nat × Trap × Bool) Translation :=
  let w := plainLook s c g root va
  match w.1 with
  | .fault t m => .error (none, t, m)
  | .demand a => .error (some a, .page, false)
  | .leaf addr entry level =>
    match leafFault va entry level write with
    | some t => .error (none, t, false)
    | none => .ok { pa := entry / 2 ^ 16 % 2 ^ 36 * 65536 + va % 2 ^ pageBits level, leaf := entry, level := level, entry := addr,
                    walked := w.2 }

theorem lookUp_plain (s : State) (c : Nat) (g : Word) (root va : Nat) (h : (s.region c).tlb = []) :
    s.lookUp c g root va = plainLook s c g root va := by
  simp only [State.lookUp, plainLook, h, List.find?_nil, ite_self]

theorem translate_plain (s : State) (c : Nat) (g : Word) (root va : Nat) (write : Bool) (h : (s.region c).tlb = []) :
    s.translate c g root va write = plainTranslate s c g root va write := by
  simp only [State.translate, plainTranslate, lookUp_plain s c g root va h] <;> rfl

/-- The translation of an address for a request, where there is one. -/
def translated (s : State) (q : MemReq) (va : Nat) (write : Bool) : Translation :=
  match plainTranslate s q.cluster q.tag (s.rootOf q.cluster q.tag) va write with
  | .ok t => t
  | .error _ => { pa := 0, leaf := 0, level := 0, entry := 0, walked := [] }

/-- What TablesRead and Translates ask, with nothing cached. -/
def tablesClear (s : State) (q : MemReq) (va : Nat) : Bool :=
  (plainLook s q.cluster q.tag (s.rootOf q.cluster q.tag) va).2.all
    (fun a => !s.inLentPage (a / 128 * 128) && !s.poisoned.contains (a / 128))

def translatesTo (s : State) (q : MemReq) (va n : Nat) (write : Bool) : Bool :=
  let t := translated s q va write
  decide (0 < n) && decide (va % 128 + n ≤ 128) && tablesClear s q va && t.walked.all (fun a => !s.poisoned.contains (a / 128))
    && okAnd (plainTranslate s q.cluster q.tag (s.rootOf q.cluster q.tag) va write) (fun _ => true)
    && (s.physPlace t.pa == .hbm || s.physPlace t.pa == .host) && !s.inLentPage t.pa && !s.poisoned.contains (t.pa / 128)

theorem tables_read (s : State) (q : MemReq) (va : Nat) (h : (s.region q.cluster).tlb = []) (he : q.early = none)
    (hb : tablesClear s q va = true) : TablesRead s q va := by
  simp only [TablesRead, State.walkedBy, he, Option.filter, lookUp_plain s _ _ _ _ h]
  simpa [tablesClear] using hb

theorem translates (s : State) (q : MemReq) (va n : Nat) (write : Bool) (h : (s.region q.cluster).tlb = []) (he : q.early = none)
    (hb : translatesTo s q va n write = true) : Translates s q va n write (translated s q va write) := by
  simp only [translatesTo, Bool.and_eq_true, Bool.or_eq_true, decide_eq_true_eq, beq_iff_eq, Bool.not_eq_true', List.all_eq_true] at hb
  obtain ⟨⟨⟨⟨⟨⟨⟨h1, h2⟩, h3⟩, h4⟩, h5⟩, h6⟩, h7⟩, h8⟩ := hb
  refine ⟨h1, h2, tables_read s q va h he h3, h4, ?_, h6, h7, h8⟩
  rw [translate_plain s _ _ _ _ _ h]
  simp only [translated]
  revert h5
  cases plainTranslate s q.cluster q.tag (s.rootOf q.cluster q.tag) va write <;> simp [okAnd]

/-- What Walking asks, with the request's turn. -/
def walks (s : State) (q : MemReq) : Bool :=
  s.req? s.cur.id == some q && q.stage == .issued && q.cluster != 64 && !s.isGone q && s.specOf q.cluster q.tag == none
    && !s.isSpec q.cluster q.tag && q.early == none && q.fetched == none && s.reqs == [q] && s.farLines == []

theorem walking (s : State) (q : MemReq) (h : walks s q = true) : Walking s q := by
  simp only [walks, Bool.and_eq_true, beq_iff_eq, Bool.not_eq_true', bne_iff_ne] at h
  obtain ⟨⟨⟨⟨⟨⟨⟨⟨⟨h1, h2⟩, h3⟩, h4⟩, h5⟩, h6⟩, h7⟩, h8⟩, h9⟩, h10⟩ := h
  exact ⟨h1, h2, h3, h4, h5, h6, h7, h8, by intro p hp _; rw [h9] at hp; simpa using hp, h10⟩

/-- A request whose turn has come, in a state of one request, with the translation of its part of n bytes at an address. -/
theorem at_turn (s : State) (q : MemReq) (va n : Nat) (write : Bool) (h : (s.region q.cluster).tlb = [])
    (hb : (walks s q && s.mayPerform q && translatesTo s q va n write) = true) :
    (Walking s q ∧ s.mayPerform q = true) ∧ Translates s q va n write (translated s q va write) := by
  simp only [Bool.and_eq_true] at hb
  exact ⟨⟨walking s q hb.1.1, hb.1.2⟩, translates s q va n write h (walking s q hb.1.1).2.2.2.2.2.2.1 hb.2⟩

theorem test_met_ready_load :
    let q := { req0 .load 0x50000 .issued with size := 4 }
    let s := paged q id
    ∃ t, (Walking s q ∧ s.mayPerform q = true) ∧ Translates s q 0x50000 4 false t ∧ Served s q 0x50000 false t := by
  intro q s
  have h := at_turn s q 0x50000 4 false rfl (by decide +kernel)
  exact ⟨_, h.1, h.2, by decide +kernel, by decide, fun _ => by decide +kernel, by decide +kernel⟩

theorem test_met_ready_store :
    let q := { req0 .store 0x40000000 .issued with size := 4 }
    let s := paged q (fun r => { r with l1 := [(0x800000, { state := .e, data := 0 })] })
    ∃ t, (Walking s q ∧ s.mayPerform q = true) ∧ Translates s q 0x40000000 4 true t ∧ Served s q 0x40000000 true t := by
  intro q s
  have h := at_turn s q 0x40000000 4 true rfl (by decide +kernel)
  exact ⟨_, h.1, h.2, by decide +kernel, fun _ => by decide +kernel, by decide, by decide +kernel⟩

/-- MemoryEvents: an access that crosses a line, into the same page, into an empty one and into one with another MT; its second half. -/
def crossing (kind : ReqKind) (va : Dword) : MemReq := { req0 kind va .issued with size := 4 }

theorem test_met_split :
    (∀ kind ∈ [ReqKind.load, .store],
      let q := crossing kind 0x5007E
      let s := paged q id
      let t := translated s q 0x5007E (kind == ReqKind.store)
      let e := translated s q 0x50080 (kind == ReqKind.store)
      let s1 := s.updReq 9 (fun p => { p with second := some e })
      walks s q = true ∧ s.mayPerform q = true ∧ translatesTo s q 0x5007E 2 (kind == ReqKind.store) = true ∧ tablesClear s q 0x50080 = true ∧
        leafMt e.leaf = leafMt t.leaf ∧ leafW e.leaf = leafW t.leaf ∧ leafShr e.leaf = leafShr t.leaf ∧ leafMt t.leaf = 1 ∧
        (marked s1 q 0x5007E (kind == ReqKind.store) t).slabsOut (t.pa / 128) = false ∧
        (marked s1 q 0x5007E (kind == ReqKind.store) t).mixed (t.pa / 128) = false) ∧
    (let q := crossing .load 0x7FFFFFFE
     let s := paged q id
     walks s q = true ∧ s.mayPerform q = true ∧ translatesTo s q 0x7FFFFFFE 2 false = true ∧ tablesClear s q 0x80000000 = true ∧
       errAnd (plainTranslate s 0 0 (s.rootOf 0 0) 0x80000000 false) (fun e => e.1.isNone) = true) ∧
    (let q := crossing .load 0x3FFFFFFE
     let s := paged q id
     walks s q = true ∧ s.mayPerform q = true ∧ translatesTo s q 0x3FFFFFFE 2 false = true ∧ tablesClear s q 0x40000000 = true ∧
       leafMt (translated s q 0x40000000 false).leaf ≠ leafMt (translated s q 0x3FFFFFFE false).leaf) ∧
    (∀ kind ∈ [ReqKind.load, .store],
      let p := { crossing kind 0x5007E with agen := 2, got := if kind == ReqKind.load then [1, 2] else [] }
      let q := { p with second := some (translated (paged p id) p 0x50080 (kind == ReqKind.store)) }
      let s := paged q id
      let t := translated s q 0x50080 (kind == ReqKind.store)
      walks s q = true ∧ s.mayPerform q = true ∧ q.second = some t ∧ s.physPlace t.pa = .hbm ∧ s.inLentPage t.pa = false ∧
        s.poisoned.contains (t.pa / 128) = false ∧ inAperture 0x50080 = false ∧ leafMt t.leaf = 1 ∧
        (marked s q 0x50080 (kind == ReqKind.store) t).slabsOut (t.pa / 128) = false ∧
        (marked s q 0x50080 (kind == ReqKind.store) t).mixed (t.pa / 128) = false) := by
  refine ⟨?_, ?_, ?_, ?_⟩ <;> decide +kernel

/-- MemoryEvents: an atomic and a phaser operation at an address that translates, and atomics of addresses that are not aligned. -/
theorem test_met_atomic_walk :
    (∀ k ∈ [(ReqKind.atomic .add, 4, true), (.phaser .sig, 128, true), (.phaser .wait, 128, false)],
      let q := req0 k.1 0x50000 .issued
      let s := paged q id
      walks s q = true ∧ s.mayPerform q = true ∧ translatesTo s q 0x50000 k.2.1 k.2.2 = true ∧ q.agen = 0 ∧
        (marked s q 0x50000 k.2.2 (translated s q 0x50000 k.2.2)).slabsOut 0xA00 = false) ∧
    (∀ k ∈ [ReqKind.atomic .add, .phaser .sig],
      walks (paged (req0 k 0x50002 .issued) id) (req0 k 0x50002 .issued) = true ∧
        (paged (req0 k 0x50002 .issued) id).mayPerform (req0 k 0x50002 .issued) = true) := by
  refine ⟨?_, ?_⟩ <;> decide +kernel

/-- A counter line at 0x50000, initialised or not, with a slab of 3 in cluster 0. -/
def countered (op : QuarryOp) (init : Bool) : State :=
  { paged { req0 (.quarry op) 0x50000 .issued with b := 2 } (fun r => { r with slabs := [(0xA00, { amount := 3, ceil := 5, used := 0 })] }) with
    mem := if init then [(0x5000B, 0x80)] else [] }

/-- MemoryEvents: a take and a give that the slab of the cluster serves, an INIT, and a take at a line that is not initialised. -/
theorem test_met_quarry_walk :
    (∀ op ∈ [QuarryOp.take, .takew, .give, .init],
      let q := { req0 (.quarry op) 0x50000 .issued with b := 2 }
      let s := countered op true
      let u := marked s q 0x50000 true (translated s q 0x50000 true)
      walks s q = true ∧ s.mayPerform q = true ∧ translatesTo s q 0x50000 128 true = true ∧ q.agen = 0 ∧ u.slabStruck 0 0xA00 = false ∧
        (u.counter 0xA00).init = true ∧ (u.counter 0xA00).lost = false ∧ u.sharedPage q = false ∧ u.mixed 0xA00 = false ∧
        (u.slab? 0 0xA00).map (fun b => (b.amount, b.ceil)) = some (3, 5)) ∧
    (let q := { req0 (.quarry .take) 0x50000 .issued with b := 2 }
     let s := countered .take false
     walks s q = true ∧ s.mayPerform q = true ∧ translatesTo s q 0x50000 128 true = true ∧
       ((marked s q 0x50000 true (translated s q 0x50000 true)).counter 0xA00).init = false) := by
  refine ⟨?_, ?_⟩ <;> decide +kernel

/-- A row of four f32 elements on its way to or from tile 1, whose state has one row or two. -/
def rowOp (load : Bool) : RegOp :=
  { regOp (if load then .tld 0x50000 0 64 false else .tst 0x50000 0 64 false) (if load then [] else [1]) (if load then [1] else []) true
    with id := 9 }

def rowReq (load : Bool) : MemReq := { req0 (if load then .tileLoad 9 else .tileStore 9) 0x50000 .issued with size := 4 }

def rowState (load : Bool) (ctrl : Word) : State :=
  paged (rowReq load) (fun r => { r with regOps := [rowOp load], tiles := [(1, { ctrl := ctrl, bytes := [(0, 7)] })] })

/-- MemoryEvents: the only row and the first of two, of a TLD and a TST. -/
theorem test_met_tile_walk :
    ([(true, 0x180, 1), (true, 0x181, 2), (false, 0x180, 1), (false, 0x181, 2)] : List (Bool × Word × Nat)).all (fun k =>
      let q := rowReq k.1
      let s := rowState k.1 k.2.1
      let t := translated s q 0x50000 (!k.1)
      ((s.region 0).regOps.find? (fun p => p.id == q.id)).any (fun o => o == rowOp k.1) &&
        ((rowOp k.1).part (s.ctrlOf 0 1) 0) == (0x50000, 16) && walks s q && s.mayPerform q && q.c == 0 && q.agen == 0
        && translatesTo s q 0x50000 16 (!k.1) && !(marked s q 0x50000 (!k.1) t).slabsOut (t.pa / 128)
        && !(marked s q 0x50000 (!k.1) t).mixed (t.pa / 128) && leafMt t.leaf == 1 && partCount 1 (s.ctrlOf 0 1) == k.2.2) = true := by
  decide +kernel

/-- MemoryEvents: an empty page, a demand page with a free page in the ring, a vault slot, a reply. -/
theorem test_met_memory_events :
    (let q := { req0 .load 0x80000000 .issued with size := 4 }
     let s := paged q id
     walks s q = true ∧ s.mayPerform q = true ∧ tablesClear s q 0x80000000 = true ∧
       errAnd (plainTranslate s 0 0 (s.rootOf 0 0) 0x80000000 false) (fun e => e.1.isNone) = true) ∧
    (let s := { at_ { index := 0x22008 } with mem := [(0x22008, 4)], regs := { fpbase := 0x60000, fpprod := 1 } }
     s.hasFreePage = true ∧ s.readPhysNat 0x22008 8 % 2 = 0 ∧ s.readPhysNat 0x22008 8 / 4 % 4 = 1 ∧
       s.inLentPage (0x22008 / 128 * 128) = false ∧ s.inLentPage (s.freePageAt / 128 * 128) = false ∧ s.farLines = []) ∧
    (let q : MemReq := { req0 .load 0 .performed with result := [.narrow 5] }
     let s := paged q id
     s.isKilled q = false ∧ s.inReplyOrder q = true ∧ s.spanReqs = []) ∧
    (∀ n, ((reg0 (at_ {}) (fun r => { r with answers := [(9, 0, n)] })).region 0).answers = [((req0 .load 0 .performed).id, 0, n)]) := by
  refine ⟨?_, ?_, ?_, fun _ => rfl⟩ <;> decide +kernel

theorem test_met_vault :
    let q := { req0 .load 0xFFFFF80000000 .issued with size := 4 }
    let s := { paged q id with dies := [(0, { l2 := vaultPages })] }
    ∃ t u, (Walking s q ∧ s.portBehind q = false) ∧ Translates s q 0xFFFFF80000000 4 false t ∧
      (marked s q 0xFFFFF80000000 false t).openSlot 0xFFFFF80000000 (t.pa / 65536) = some u ∧ u.mixed (t.pa / 128) = false := by
  intro q s
  have h : someAnd ((marked s q 0xFFFFF80000000 false (translated s q 0xFFFFF80000000 false)).openSlot 0xFFFFF80000000
      ((translated s q 0xFFFFF80000000 false).pa / 65536))
      (fun u => !u.mixed ((translated s q 0xFFFFF80000000 false).pa / 128)) = true := by decide +kernel
  revert h
  generalize hu : (marked s q 0xFFFFF80000000 false (translated s q 0xFFFFF80000000 false)).openSlot 0xFFFFF80000000
    ((translated s q 0xFFFFF80000000 false).pa / 65536) = o
  cases o with
  | none => intro h; cases h
  | some u =>
    intro h
    exact ⟨_, u, ⟨walking s q (by decide +kernel), by decide +kernel⟩, translates s q 0xFFFFF80000000 4 false rfl rfl (by decide +kernel),
      hu, by simpa [someAnd] using h⟩

/-! ## The hypotheses of the statements are met: homes, coherence, copies, links, hand-over -/

/-- HomeEvents: an atomic at its home, kept and not; PSIG with a count equal to PEND and one less. -/
theorem test_met_atomic :
    (let q := req0 (.atomic .add) 0x1000 .away
     let s := { paged q id with mem := [(0x1004, 3), (0x1008, 5)] }
     s.req? 9 = some q ∧ s.kept q = none ∧ s.inLentPage 0x1000 = false ∧ s.specOf 0 0 = none ∧ s.isSpec 0 0 = false ∧ s.mixed 32 = false ∧
       s.readPhysNat 0x1008 4 % 65536 = 5) ∧
    (let q := req0 (.atomic .add) 0x1000 .away
     ({ paged q id with rids := [(sourcePort q, [(0, [])])] } : State).kept q = some []) ∧
    (5 : Word).toNat ≤ 5 ∧ (4 : Word).toNat ≤ 5 := by
  refine ⟨?_, ?_, by decide, by decide⟩ <;> decide +kernel

/-- HomeEvents: a counter line with POOL 9, a take of 9; a line with a holder; a line that is not initialised. -/
theorem test_met_take :
    let q : MemReq := { req0 (.quarry .take) 0x1000 .away with b := 9 }
    let s := { paged q id with mem := [(0x1000, 9), (0x100B, 0x80)] }
    s.req? 9 = some q ∧ s.isKilled q = false ∧ s.kept q = none ∧ s.cur.amount = none ∧ s.sentBefore true 0 32 0 = false ∧
      s.inLentPage (32 * 128) = false ∧ (s.quarryOf 32).arrived = [] ∧ (s.quarryOf 32).writing = none ∧ s.quarryRival 32 0 = false ∧
      (s.quarryOf 32).recalled = none ∧ (s.quarryOf 32).waiters = [] ∧ s.cur.go = true ∧
      (let k := s.counter 32
       k.init = true ∧ k.lost = false ∧ 9 ≤ k.pool ∧ policyHome k.policy = false) ∧
      s.mixed 32 = false ∧ (s.quarryOf 32).sent.getD 0 0 = 0 := by decide +kernel

theorem test_met_counter_write :
    (let q := req0 .store 0x1000 .away
     let s := { paged q id with mem := [(0x1008, 1), (0x100B, 0x80), (0x100C, 1)], quarry := [(32, {})] }
     s.cur.hasC = false ∧ s.cur.id ≠ 0 ∧ s.req? 9 = some q ∧ s.holdsSlabs 32 = true ∧ (s.quarryOf 32).recalled = none ∧
       (s.quarryOf 32).arrived = [] ∧ (s.quarryOf 32).writing = none ∧ s.quarryRival 32 0 = false) ∧
    (at_ { hasC := true }).cur.hasC = true ∧ ((at_ {}).counter 32).init = false := by
  refine ⟨?_, by decide, ?_⟩ <;> decide +kernel

/-- HomeEvents: a refill and a recall that nothing sent before, a slab that no error has struck, an AFADD of one f16 value. -/
theorem test_met_slabs :
    let s := reg0 (at_ { index := 32 }) (fun r => { r with slabs := [(32, { amount := 3, ceil := 4, used := 0 })] })
    s.sentBefore false 0 32 0 = false ∧ s.sentBefore true 0 32 0 = false ∧ s.slabStruck 0 32 = false ∧
    (s.region 0).slabs.length < 256 ∧ (s.slab? 0 32).isSome = true ∧ (s.quarryOf 32).waiters = [] ∧
    ({ req0 (.atomic .fadd) 0x1000 .away with fmt := 1 } : MemReq).fmt.toNat ≤ 2 := by decide +kernel

def message (src dst : Node) : Msg :=
  { src := src, dst := dst, line := 5, requester := src, state := .s, data := none }

/-- CoherenceMessages: a request at a die without a state, and at the home die in each state. -/
theorem test_met_die_request :
    (let s := at_ { msg := message (.l1 0) (.die 0) }
     s.cur.hasC = false ∧ (s.die 0).txns.get? (ownKey 5) = none ∧ (s.die 0).txns.get? (forwardKey 5) = none ∧
       (s.die 0).evicting.get? 5 = none ∧ s.waitingAt 0 5 = [] ∧ s.rival (.die 0) 5 0 = false ∧ s.dieState 5 0 = .i ∧
       (s.allocate 0 5).isSome = true) ∧
    (∀ st ∈ [LineState.m, .e, .s, .o],
      let s := { at_ { msg := message (.l1 0) (.die 0) } with
        dir := [(5, { dies := [st, .i, .i, .i] })], dies := [(0, { holders := [(5, [(0, .s)])] })] }
      s.dieState 5 0 = st ∧ homeOf 5 = 0 ∧ isHostLine 5 = false ∧ s.offCache 5 = false ∧ without 0 (s.holdersOf 0 5) = [] ∧
        (s.allocate 0 5).isSome = true ∧ (s.dirOf 5).txn = none ∧ (s.dirOf 5).host = .i ∧
        (List.range 4).all (fun n => n == 0 || (s.dirOf 5).dies.getD n .i == .i) = true) ∧
    (({ at_ {} with dir := [(5, { dies := [.s, .s, .i, .i] })] } : State).dirOf 5).dies.getD 1 .i ≠ .i := by decide +kernel

/-- CoherenceMessages: an L1 with the line in M and in S, fewer than 16 evictions, an IACK that is not the last. -/
theorem test_met_l1_messages :
    (∀ st ∈ [LineState.m, .s],
      ((reg0 (at_ { msg := message (.die 0) (.l1 0) }) (fun r => { r with l1 := [(5, { state := st, data := 1 })] })).region 0).l1.get? 5
        = some { state := st, data := 1 }) ∧
    ((at_ {}).region 0).evicting.length < 16 ∧ (at_ {}).offCache 5 = false ∧
    (let k : Txn := { msg := message (.l1 1) (.die 0), excl := true, acks := 2 }
     let s := { at_ { msg := message (.l1 0) (.die 0) } with dies := [(0, { txns := [(ownKey 5, k)] })] }
     (s.die 0).txns.get? (ownKey 5) = some k ∧ (s.die 0).txns.get? (forwardKey 5) = none ∧ k.msg.src = .l1 1 ∧ 1 < k.acks) := by
  decide +kernel

def template0 (state : CopyState) (run : Option CopyRun) : Template :=
  { desc := 0, state := state, queue := [{ index := 2, tag := 0, after := [] }], run := run }

/-- CopyAndChannelEvents: a trigger of a template in each state, a copy behind its last element, a copy that meets a fault. -/
theorem test_met_copy :
    (∀ st ∈ [CopyState.idle, .error, .armed],
      let s := live (reg0 (at_ { index := 1 }) (fun r => { r with templates := [(1, template0 st none)] }))
      (s.template 0 1).queue = [{ index := 2, tag := 0, after := [] }] ∧ (s.template 0 1).run = none ∧ s.runs 0 0 = true ∧ (s.template 0 1).state = st ∧
        descRemote (s.template 0 1).desc = false) ∧
    (let r0 : CopyRun := { index := 2, tag := 0, desc := 0, next := descCount 0, sat := 0, req := 9 }
     let s := { live (reg0 (at_ { index := 1, id := 9 }) (fun r => { r with templates := [(1, template0 .busy (some r0))] })) with
        reqs := [req0 (.copyWrite 1) 0 (.held .page)] }
     (s.template 0 1).run = some r0 ∧ descCount r0.desc ≤ r0.next ∧
       s.req? 9 = some (req0 (.copyWrite 1) 0 (.held .page)) ∧ (req0 (.copyWrite 1) 0 (.held .page)).counted = true ∧
       Stage.held Trap.page ≠ .away) := by decide +kernel

/-- CopyAndChannelEvents: words for a tag without a binding, a binding whose count has come, a part of another cluster. -/
theorem test_met_channel_events :
    ((at_ { index := 5, amount := some 1 }).binder 5 = none) ∧
    (let b : Binding := { channel := 5, exp := 4, phase := 0, flag := false, value := 0, tag := 0 }
     let s := { live (reg0 (at_ { index := 5 }) (fun r => { r with bindings := [(0x1380, b)] })) with channels := [(5, 4)] }
     s.binder 5 = some (0, 0x1380, b) ∧ s.runs 0 b.tag = true ∧ b.exp.toNat ≤ s.channelCount 5 ∧ s.binderCtx 0 b = none ∧
       (s.binderCtx 0 { b with ctx := 1 }).isSome = true) ∧
    (let q : MemReq := { id := 9, cluster := 0, station := 0x1380, tag := 0, kind := .flagWrite, va := 0x28, stage := .issued }
     let s := { at_ {} with reqs := [q] }
     q.va.toNat = s.regs.flagbase.toNat + 8 * 5 ∧ q.stage ≠ .performed ∧ s.spanReqs = []) ∧
    (let p : JoinPart := { src := 1, dst := 0, station := 0x1300, tag := 0, group := 0x40, count := 4, value := 7 }
     let s := live (at_ { id := 1, part := p })
     s.cur.id ≠ 0 ∧ p.bad = false ∧ s.earlierPart s.cur = false ∧ s.ctxAt p.dst (tagCtx p.tag) = some (ctx unit) ∧ p.src ≠ p.dst ∧
       (s.region p.dst).rounds = []) := by decide

/-- LinkEvents: a request that has waited 100,000 counts for a port; accesses of another device and of the host. -/
theorem test_met_links :
    (let q := req0 .load 0 .away
     let s := { paged q id with spanReqs := [{ id := 9, device := 7, addr := 0, mask := 1 }], refCount := 100000, regs := { route := [(7, 1)] }, spanDown := [0] }
     s.spanReqs.find? (fun e => e.id == 9) = some { id := 9, device := 7, addr := 0, mask := 1 } ∧ s.req? 9 = some q ∧ s.linkUp { id := 9, device := 7, addr := 0, mask := 1 } = false ∧ q.cluster ≠ 64 ∧
       100000 ≤ s.refCount ∧ s.cur.amount = none) ∧
    (let s := at_ { access := { write := true, addr := 0x100, data := [1], size := 1 } }
     s.takesWrites = true ∧ s.inLentPage 0x100 = false ∧ s.cur.access.far = none ∧ s.poisoned.contains 2 = false ∧ s.slabsOut 2 = false) ∧
    (let s := at_ { id := 7, host := { write := true, addr := 0x17F, data := [1] } }
     s.within 0x17F = true ∧ 0x17F % 128 + s.cur.host.data.length ≤ 128 ∧ s.inLentPage 0x17F = false ∧ s.hostBehind 2 = false ∧
       s.poisoned.contains 2 = false ∧ s.slabsOut 2 = false ∧ s.residentSlot 0 = none ∧ s.hostGranted 2 7 = false ∧
       s.hostQueued 2 7 = false ∧ (s.dirOf 2).txn = none ∧ (s.dirOf 2).waiting = [] ∧ s.rival (.home 0) 2 1 = false ∧
       (s.allocate 0 2).isSome = true ∧ ∀ n, n < 4 → (s.dirOf 2).dies.getD n .i = .i) ∧
    (let s := at_ { id := 7, host := { write := true, addr := 0x17F, data := [1] } }
     let t := { s with dir := [(2, { txn := some {
       msg := { message .host (.home 0) with line := 2 }, excl := true, acks := 0, phase := .grant, site := s.cur } })] }
     t.hostGranted 2 7 = true ∧ t.poisoned.contains 2 = false ∧ (t.dirOf 2).dies.length = 4 ∧ (t.dirOf 2).host ≠ .m) := by
  refine ⟨?_, ?_, ?_, ?_⟩ <;> decide +kernel

/-- LinkEvents: an element that IMPROOT translates, and one that it does not. -/
theorem test_met_import :
    (let s := { at_ { remote := { va := 0x50000, data := [1], channel := none } } with dies := [(0, { l2 := pages })], regs := { improot := 0x10000 } }
     okAnd (s.importWalk 0x50000) (fun t => !s.inLentPage t.pa && s.physPlace t.pa == .hbm && !s.slabsOut (t.pa / 128)
       && !inAperture 0x50000 && (t.pa :: t.walked).all (fun a => !s.poisoned.contains (a / 128))
       && (s.importTables 0x50000).all (fun l => !s.inLentPage (l * 128) && !s.poisoned.contains l) && s.farLines == []) = true) ∧
    (at_ {}).importTables 0x50000 = [] ∧ errAnd ((at_ {}).importWalk 0x50000) (fun n => n == Trap.access.code) = true := by decide +kernel

/-- LinkEvents: an error at a line that stands struck, a counter line. -/
theorem test_met_soft_error :
    let e : SoftError := { die := 0, unit := 1, kind := 1, line := some 32 }
    let s := { at_ { error := e } with poisoned := [32], quarry := [(32, {})] }
    s.cur.error.line = some 32 ∧ s.cur.error.slab = none ∧ s.cur.go = true ∧ 32 ∈ s.poisoned ∧ (s.quarry.get? 32).isSome = true ∧
      (at_ { go := false }).cur.go = false := by decide

/-- LinkEvents: an error in the slab entry of a cluster, and in one where the cluster has none. -/
theorem test_met_struck_slab :
    let e : SoftError := { die := 0, unit := 1, kind := 1, line := some 32, slab := some 0 }
    let s := { reg0 (at_ { error := e }) (fun r => { r with slabs := [(32, { amount := 3, ceil := 4, used := 0 })], struckSlabs := [(32, e)] })
      with quarry := [(32, {})] }
    s.cur.error.slab = some 0 ∧ (s.region 0).slabs.get? 32 ≠ none ∧ (s.region 0).struckSlabs.get? 32 ≠ none ∧
      (s.quarry.get? 32).isSome = true ∧ ((at_ { error := e }).region 0).slabs.get? 32 = none := by decide

/-- HandOver: a page that may go and those that may not, each state of HOSTAT, an arriving page with and without a free one. -/
theorem test_met_hand_over :
    (∀ st : Word, let s := { at_ {} with regs := { hostat := st, hopage := 0x10000, route := [(7, 1)], devid := 3 } }
      s.takesWrites = true ∧ s.regs.hostat = st ∧ s.regs.hopage = 0x10000 ∧
        s.regs.route.getD ((0x80000007 : Word).toNat % 4096) 0 = 1 ∧ s.regs.route.getD 8 0 = 0) ∧
    (0x10000 : Dword).toNat % 65536 = 0 ∧ (0x10000 : Dword).toNat < 2 ^ 39 ∧ (at_ {}).farLines = [] ∧
    (at_ {}).inLentPage ((at_ {}).freePageAt / 128 * 128) = false ∧ (∀ e ∈ (at_ {}).queues, ((at_ {}).queue e.1).events = []) ∧
    (let q : MemReq := { id := 9, cluster := 64, station := 64, tag := 0, kind := .store, va := 0x10008, stage := .away }
     let s := { at_ { hasC := true, amount := some 0x30000 } with
       regs := { hostat := 1 }, lentPage := some 1, lentTo := 7, reqs := [q], spanReqs := [{ id := 9, device := 7, addr := 8, mask := 1 }] }
     s.inLentPage q.va.toNat = true ∧ s.spanReqs.map (fun r => r.id) = [q.id]) ∧
    (at_ {}).regs.fpprod = (at_ {}).regs.fpcons ∧ ({ at_ {} with regs := { fpprod := 1 } } : State).regs.fpprod ≠ 0 ∧
    (at_ { hasC := true, amount := some 5 }).cur.amount = some 5 := by
  refine ⟨fun st => ⟨rfl, rfl, rfl, rfl, rfl⟩, ?_, ?_, ?_, ?_, ?_, ?_, ?_, ?_, ?_⟩ <;> decide +kernel

/-- RegisterWrites: a device that is not READY, one in RECOVERY, a ready one; an event that waits; sixteen packets and fewer. -/
theorem test_met_register_writes :
    ({ at_ {} with toll := { State.reset.toll with boot := .training } } : State).takesWrites = false ∧
    ({ at_ {} with toll := { State.reset.toll with boot := .recovery } } : State).toll.boot = .recovery ∧
    (at_ {}).takesWrites = true ∧ 0xFFFFFF + ([0] : List Byte).length ≤ 2 ^ 24 ∧
    (let s := { at_ {} with queues := [(63, { events := [{ bytes := [1] }], evhead := 0, evtail := 31, sealed := List.replicate 15 0 })] }
     (s.queue 63).events = [{ bytes := [1] }] ∧ s.inLentPage 0 = false ∧ ((s.queue 63).evtail - 0).toNat < (s.queue 63).ringSize ∧ (s.queue 63).sealed.length < 16) ∧
    (let s := { at_ {} with queues := [(4, { qctl := 0x80500000, sealed := List.replicate 16 0 })] }
     (s.queue 4).qctl.getLsbD 31 = true ∧ 16 ≤ (s.queue 4).sealed.length) ∧
    (let e : IngressRec := { cluster := 0, node := 0, value := 0, wtag := 0 }
     let s := reg0 (at_ {}) (fun r => { r with ingress := [(0, List.replicate 63 e), (1, List.replicate 64 e)] })
     s.takesWrites = true ∧ ((s.region 0).ingress.getD 0 []).length < 64 ∧ 64 ≤ ((s.region 0).ingress.getD 1 []).length) := by
  decide +kernel

/-- RegisterWrites: a packet in the aperture that is no LAUNCH. -/
theorem test_met_seal : ∀ l, decodePacket 4 ((at_ {}).queue 4).aperture ≠ .ok (.launch l) := by
  intro l h
  have : (decodePacket 4 ((at_ {}).queue 4).aperture).toOption = none := by decide +kernel
  rw [h] at this
  cases this

/-! ## The hypotheses of the statements are met: packets, the dispatcher, the Ferry -/

def current0 (bytes : BitVec 512) (stopped : Bool) : Current :=
  { bytes := bytes, pseq := 1, begun := true, stopped := stopped, args := List.replicate 16 0, binds := List.replicate 8 0 }

/-- A state whose queue 0, enabled, has a packet in hand. -/
def inHand (k : Current) (s : State) : State :=
  { s with queues := [(0, { qctl := 0xC0500004, root := 0x10000, evbase := 0x60000, current := some k })] }

def object0 : Obj :=
  { handle := 1, obj := 0x50000, sig := [], key := [], images := [{ tag := 1, amend := false, words := [] }], binds := [], seq := [],
    symbols := [], required := [], routines := [], sections := [], refs := 1, retiring := false }

/-- LaunchPacket: a block that cannot be read, an illegal rectangle, a handle of no object, an object whose feature is absent, and one
whose image is resident. -/
theorem test_met_launch :
    ({ current0 0 false with bad := some (8, 0) }).bad = some (8, 0) ∧ (current0 0 false).bad = none ∧ goodLaunch.ext = false ∧
    (Rect.ofHalf 0x40).legal = true ∧ (Rect.ofHalf 0x47).legal = false ∧ (at_ {}).launchable 1 = none ∧
    (let s := { inHand (current0 0 false) (at_ {}) with objects := [{ object0 with routines := [(12, 2)] }] }
     (s.launchable 1).isSome = true ∧ (s.queue 0).qctl.getLsbD 2 = true) ∧
    (let s := { inHand (current0 0 false) (reg0 (at_ {}) (fun r => { r with residents := [{ tag := 1, addrs := [], used := 0 }] })) with
        objects := [object0] }
     s.launchable 1 = some object0 ∧ object0.firstStep = some 0 ∧ (s.ferryOf 0).spec = none ∧ s.ctxRoom [0] = true ∧
       s.contexts = [] ∧ (Rect.ofHalf 0).clusters = [0] ∧ s.residentIn 0 1 = true ∧ (s.region 0).swept = true ∧ s.frozen 0 = false ∧
       s.object? 1 = some object0) := by decide +kernel

/-- LaunchPacket: an extension block that is still to be read, at an address that translates, at one that does not and at one that is not
aligned. -/
theorem test_met_extension :
    let s := { inHand { current0 0 false with args := [] } (at_ {}) with dies := [(0, { l2 := pages })] }
    (s.queue 0).current.map (fun c => (c.args, c.bad)) = some ([], none) ∧
    ([0x40000000, 0x80000000, 8] : List Nat).all (fun a => s.linesHere (s.queueLines 0 a 96 true)) = true ∧
    okAnd (State.queueRead 2 s 0 0x40000000 96).1 (fun b => b.length == 96) = true ∧
    errAnd (State.queueRead 2 s 0 0x80000000 96).1 (fun f => f.va == 0x80000000) = true ∧ 0x40000000 % 128 = 0 ∧ 8 % 128 ≠ 0 := by
  decide +kernel

def speculation0 : Speculation :=
  { launch := 1, hint := false, landing := [], reads := [3], dirty := [], tiles := [], accs := [], lfsrs := [], idle := some 0 }

/-- LaunchPacket: a speculation that the packet matches. FerryEvents: a read set with and without a line, a rest of 100,000 counts. -/
theorem test_met_claim :
    let l := { launch0 with args := List.replicate 16 0, binds := List.replicate 8 0, spec := true, mayspec := true }
    let s := { inHand (current0 0 false) (at_ { queue := 1, index := 3, id := 1 }) with
      objects := [object0], launches := [l], ferry := [(0, { spec := some speculation0 })] }
    s.specLaunch 0 = some (speculation0, l) ∧ s.claimWaits 0 = none ∧ l.args = (current0 0 false).args ∧
      l.binds = (current0 0 false).binds ∧ l.handle = goodLaunch.handle ∧ l.rect = Rect.ofHalf goodLaunch.rect ∧
      l.classes = goodLaunch.classes ∧ s.launchable 1 = some object0 ∧ s.cur.index ∈ speculation0.reads ∧ 4 ∉ speculation0.reads ∧
      speculation0.idle = some 0 := by decide +kernel

/-- QueuePackets: WAIT at and above CSEQ, WAITF and SIGNAL in a page, without a page and unaligned. -/
theorem test_met_queue_packets :
    let s := { inHand (current0 0 false) (at_ {}) with dies := [(0, { l2 := pages })] }
    let t := { s with queues := [] }
    (1 : Dword).toNat % 8 ≠ 0 ∧ ((0 : Dword).toNat ≤ (s.queue 1).cseq.toNat) ∧ (s.queue 1).cseq.toNat < (1 : Dword).toNat ∧
    (∀ b : Bool, s.linesHere (s.queueLines 0 0x40000000 8 b) = true) ∧
    (let u := { s with regs := { hostat := 2 }, lentPage := some 0x4000 }
     u.linesHere (u.queueLines 0 0x40000000 8 true) = false) ∧
    (let u := { s with regs := { hostat := 2 }, lentPage := some 1 }
     u.linesHere (u.queueLines 0 0x40000000 8 false) = false) ∧
    (okAnd (s.queueTranslate 0 0x40000000 false).1 (fun p =>
      let u := (s.queueTranslate 0 0x40000000 false).2
      u.within p.pa && leafMt p.leaf == 0 && u.readPhysNat p.pa 8 == 0)) = true ∧
    (okAnd (s.queueTranslate 0 0x40000000 true).1 (fun p =>
      let u := (s.queueTranslate 0 0x40000000 true).2
      u.physPlace p.pa == .hbm && !u.inLentPage p.pa && !u.slabsOut (p.pa / 128)
        && okAnd (State.queueWrite 2 u 0 0x40000000 (bytesOfNat 8 5)).1 (fun _ => true))) = true ∧
    (errAnd (t.queueTranslate 0 0x40000000 false).1 (fun f => f.va == 0x40000000)) = true ∧
    (errAnd (t.queueTranslate 0 0x40000000 true).1 (fun f => f.kind == 1)) = true := by decide +kernel

/-- An object of 328 bytes with one image of BEGIN, END, CHKLO and CHKHI, as lines of an L2 from 0x50000. Its signature section holds
the neutral point and a zero scalar, which verify for every message. -/
def objectLines : Table L2Line :=
  [(0xA00, { data := 0x100000060000000e8000000090000000000000000000000e8000000070000000100000020000000c80000000300000001000000480000008000000001000000000000000000000000000000000000000000000000000000000000000000000000000000000000000000000000000000000000014800000004004f5844, dirty := true }),
   (0xA01, { data := 0x1ffff0000fffe0000fffd0000fff8000100000000000000040000000400000001000000000000000000000000000000000000000000000000000000000000000000000000000000000000000000000000000000000000000000000000000000000000000000000000, dirty := true }),
   (0xA02, { data := 0x10000000000000000, dirty := true })]

def neutralKey : List Byte := 1 :: List.replicate 31 0

/-- A queue whose address space holds the object, on a device that trusts its key. -/
def loading : State :=
  { inHand (current0 0 false) (at_ {}) with
    dies := [(0, { l2 := [(0x200, { data := 0x20001, dirty := true }), (0x400, { data := 0x400000C700000000000000CF, dirty := true })] ++ objectLines })], toll := { State.reset.toll with keys := [(0, neutralKey)] } }


/-- The bytes of the object. -/
def objectOf (lines : Table L2Line) : List Byte := ({ at_ {} with dies := [(0, { l2 := lines })] } : State).readPhysBytes 0x50000 328

/-- The same with 9 for the type of its first section. -/
def badObject : List Byte := patchBytes (objectOf objectLines) 64 [9]

/-- QueuePackets: an object that is signed and well formed, one that is only signed, and one that is not signed. -/
theorem test_met_objects :
    loading.signed (objectOf objectLines) = true ∧ loading.formatOk (objectOf objectLines) = true ∧
    loading.signed badObject = true ∧ loading.formatOk badObject = false ∧ (at_ {}).signed (objectOf objectLines) = false := by
  decide +kernel

/-- QueuePackets: a LOAD that ends with OK, one of no bytes that ends with a status, one of an object that is loaded already. -/
theorem test_met_load :
    loading.loadWaits 0 0x50000 328 0x40000000 = none ∧ loading.loadWaits 0 0x50000 0 0x40000000 = none ∧
    okAnd (loading.loadPacket 0 0x50000 328 0x40000000).1 (fun p => p.1 == .ok) = true ∧
    okAnd (loading.loadPacket 0 0x50000 0 0x40000000).1 (fun p => p.1 == .signature) = true ∧
    (∀ j ∈ loading.jobs, j.queue ≠ some 0) ∧ (Rect.ofHalf 0).legal = true ∧ (Rect.ofHalf 0x47).legal = false ∧
    someAnd (signatureOf (objectOf objectLines)) (fun k => objBytes (objectOf objectLines) k.offset 32 == neutralKey) = true := by
  decide +kernel


def freeze0 (drain saved : Bool) : Freeze :=
  { id := 7, queue := if saved then none else some 0, clusters := [0], areas := [(0, 0x70000)], ring := saved, drain := drain, start := 0,
    dtime := 1, saved := saved, stuck := false }

def live0 : State := live (at_ {})

/-- A state whose memory holds a LIST with an area for cluster 0 at 0x8000, and one with cluster 0 halted. -/
def listed : State :=
  { at_ {} with dies := [(0, { l2 := [(0x100, ⟨0x70000, true⟩), (0x101, ⟨0, true⟩), (0x102, ⟨0, true⟩), (0x103, ⟨0, true⟩)] })] }

def listedHalted : State := reg0 listed (fun r => { r with halted := true })

/-- PrivilegedPackets: a closure that no freeze holds. -/
theorem test_met_freeze :
    (∃ k, ((inHand (current0 0 false) (at_ {})).queue 0).current = some k ∧ k.stopped = false) ∧
    (Rect.ofHalf 0).legal = true ∧ (Rect.ofHalf 0x47).legal = false ∧ live0.closureOf [0] = [0] ∧ live0.inFreeze [0] = false :=
  ⟨⟨_, rfl, rfl⟩, by decide +kernel, by decide +kernel, by decide +kernel, rfl⟩

/-- PrivilegedPackets: a resume that waits, and one of an area that nothing was saved into. -/
theorem test_met_resume :
    (listed.listAreas 0x8000 (List.range 64)).filter (fun e => e.2 != 0) = [(0, 0x70000)] ∧
    listedHalted.canResume [(0, 0x70000)] = false ∧ listed.canResume [(0, 0x70000)] = true ∧
    listed.resumeCode [(0, 0x70000)] = 2 := by
  refine ⟨?_, ?_, ?_, ?_⟩ <;> decide +kernel

/-- What a save has left in an area of cluster 0: nothing of the one context it holds but its number. -/
def saved0 (s : State) : State :=
  { s with saves := [(0x70000, ⟨0, [1], Region.reset, [], [], [], true, true⟩)], contexts := [{ ctx unit with saved := true }] }

/-- PrivilegedPackets: a resume of a context that was saved, by a RESUME and by the ring; one of an area that another resume took. -/
theorem test_met_resume_done :
    (let s := saved0 listed
     s.canResume [(0, 0x70000)] = true ∧ s.resumeCode [(0, 0x70000)] = 0 ∧
       (s.namedCtxs [(0, 0x70000)]).map (fun k => ((s.savedImage k).isNone, k.id, k.saved)) = [(true, 1, true)]) ∧
    (let s := saved0 { at_ { id := 7 } with freezes := [freeze0 false true] }
     s.closureWanted (freeze0 false true) = false ∧ s.canResume [(0, 0x70000)] = true ∧ s.resumeCode [(0, 0x70000)] = 0) ∧
    (let s := { at_ { id := 7 } with freezes := [freeze0 false true] }
     s.canResume [(0, 0x70000)] = true ∧ s.resumeCode [(0, 0x70000)] ≠ 0 ∧ (freeze0 false true).stuck = false) := by
  refine ⟨?_, ?_, ?_⟩ <;> decide +kernel

/-- PrivilegedPackets: a KILL that nothing holds any more, and RETRY of an MO whose streamed operand met a fault. -/
theorem test_met_kill_and_retry :
    (let s := inHand { current0 0 true with discarded := [1] } (at_ {})
     s.launches = [] ∧ s.contexts = [] ∧ ((s.queue 0).current.map (fun k => (k.stopped, k.discarded))) = some (true, [1])) ∧
    (let run := { runOf false with restored := true, faulted := some .page }
     let s := waiting (regOp (.mma 0) [0] [0x40] true) (at_ {})
     let s := s.updMo 0 0 (fun m => { m with run := some run })
     (s.mo 0 0).run = some run ∧ run.token.pair = none ∧ (s.region 0).regOps.all (fun o => o.begun) = true) := by
  refine ⟨?_, ?_⟩ <;> decide +kernel

/-- PrivilegedPackets: KILL of a queue with and without a launch, and one that has begun; RETRY with and without a request held;
RELEASE, TLBINV and CONTINUE of a queue that has stopped. -/
theorem test_met_privileged :
    ((at_ {}).ferryOf 0).spec = none ∧ (at_ {}).runningLaunch 0 = none ∧
    (let s := { live (at_ {}) with launches := [launch0] }
     s.runningLaunch 0 = some launch0 ∧ s.hasContext 1 = true ∧ s.queueOf (ctx unit) = 0 ∧ launch0.killed = false) ∧
    ((inHand (current0 0 true) (at_ {})).queue 0).current = some (current0 0 true) ∧
    (0x12BF : Half).toNat < 0x12C0 ∧ 0x12C4 ≤ (0x12C4 : Half).toNat ∧ (at_ {}).reqs = [] ∧
    (let r := req0 .load 0 (.held .page)
     ({ at_ {} with reqs := [r] } : State).reqs = [r] ∧ r.cluster = 0 ∧ r.stage = .held .page ∧ ∀ m, r.kind ≠ .streamRead m) ∧
    (let k := current0 goodLaunch.toPacket true
     (decodePacket 0 k.bytes).toOption = some (.launch goodLaunch) ∧
       okAnd ((inHand k (at_ {})).launchHead 0 goodLaunch) (fun x => x == k) = true ∧
       errAnd ((inHand { k with bad := some (8, 0) } (at_ {})).launchHead 0 goodLaunch) (fun f => f.va == 8) = true ∧
       ({ inHand k (at_ {}) with objects := [object0] } : State).launchable 1 = some object0 ∧ (inHand k (at_ {})).launchable 1 = none) := by
  refine ⟨by decide, by decide, by decide, by decide +kernel, by decide, by decide, rfl, ⟨rfl, rfl, rfl, ?_⟩, ?_, ?_, ?_, ?_⟩
  · intro m h; cases h
  · decide +kernel
  · decide +kernel
  · decide +kernel
  · decide +kernel

/-- A head that is no WAITF. -/
def headAllowed (h : Option (Current × Except Reject Instr)) : Bool :=
  match h with
  | some (_, .ok (.waitf _ _)) => false
  | _ => true

/-- DispatcherEvents: a window with nothing sealed and with a slot sealed; two heads; a queue with a packet taken. -/
theorem test_met_selection :
    (let s := { inHand (current0 0 false) (at_ {}) with queues := [(0, { qctl := 0xC0500000, winbase := 0x8000 })] }
     let t := { s with dies := [(0, { l2 := [(0x100, { data := 1 <<< 504, dirty := true })] })] }
     (s.queue 0).qctl.getLsbD 31 = true ∧ s.readPhysNat (0x8000 + 63) 1 ≠ lapSeal 0 256 ∧
       t.readPhysNat (0x8000 + 63) 1 = lapSeal 0 256 ∧ (at_ {}).queue 5 = {}) ∧
    (let c := { current0 0x10 false with begun := false }
     let q : Queue := { qctl := 0xC0500000, taken := [c] }
     let s := { at_ {} with queues := [(0, q)] }
     s.queues = [(0, s.queue 0)] ∧ (s.queue 0).taken = [c] ∧ (s.queue 0).current = none ∧ s.jobs = [] ∧ s.launches = [] ∧
       c.begun = false ∧ (match decodePacket 0 c.bytes with | .ok (.launch _) => false | _ => true) = true) ∧
    (let c := { current0 0x10 false with begun := false }
     let s := { at_ {} with queues := [(0, { qctl := 0xC0500000, current := some c }), (1, { qctl := 0xC0500000, current := some c })] }
     s.chooseHead = some 0 ∧ s.readyHead 1 = some 0 ∧ s.jobs = [] ∧ s.launches = [] ∧
       (List.range 64).all (fun n => (s.queue n).taken == [] && headAllowed (s.waitingHead n)) = true) ∧
    (at_ {}).chooseHead = none := by
  refine ⟨?_, ?_, ?_, ?_⟩ <;> decide +kernel

/-- DispatcherEvents: a WAITF in hand that watches a line; a save that may begin and one that waits; a drain with a context and without;
before and after DTIME. -/
theorem test_met_dispatcher_events :
    (let p : BitVec 512 := 0x500000000000010000000000000000003
     (decodePacket 0 p).toOption = some (.waitf 0x1000 5) ∧
     ∀ w : Option Nat, ({ at_ {} with queues := [(0, { current := some (current0 p false), waiting := w })] } : State).queue 0
       = { current := some (current0 p false), waiting := w }) ∧
    (let s := { live (at_ { id := 7 }) with freezes := [freeze0 false false] }
     let t := { s with reqs := [req0 .load 0 .away] }
     s.freezes.find? (fun f => f.id == 7) = some (freeze0 false false) ∧ (s.withdraw [0]).canSave [0] = true ∧
       (t.withdraw [0]).canSave [0] = false) ∧
    (let s := { at_ { id := 7 } with freezes := [freeze0 true false] }
     s.freezes.find? (fun f => f.id == 7 && f.drain) = some (freeze0 true false) ∧ s.ctxsOf 0 = [] ∧ (live s).ctxsOf 0 ≠ [] ∧
       s.refCount < 1024 ∧ (freeze0 true false).queue = some 0) := by
  refine ⟨⟨by decide +kernel, fun w => rfl⟩, ?_, ?_⟩ <;> decide +kernel

/-- A WAITF of queue 0 for 5 at an address whose flag stands at 9. -/
def waitingFlag (n : Wide) : State :=
  let c : Current := { current0 0x500000000400010000000000000000003 false with begun := false }
  let q : Queue := { root := 0x10000, qctl := 0xC0500000, current := some c, waiting := some 0x800020 }
  { at_ {} with queues := [(0, q)], dies := [(0, { l2 := pages ++ [(0x800020, { data := n, dirty := true })] })] }

/-- DispatcherEvents: a head that waits for its flag, and one that looks at it, below its value and above. -/
theorem test_met_flag :
    someAnd ((waitingFlag 9).waitingHead 0) (fun h => match h.2 with | .ok (.waitf a v) => a == 0x40001000 && v == 5 | _ => false) = true ∧
    ((waitingFlag 9).queue 0).waiting = some 0x800020 ∧
    ((waitingFlag 9).updQueue 0 (fun k => { k with waiting := none })).readyHead 0 = some 0 := by
  refine ⟨?_, rfl, ?_⟩ <;> decide +kernel

theorem test_met_flag_value :
    ([4, 9] : List Wide).all (fun n =>
      let s := (waitingFlag n).updQueue 0 (fun k => { k with waiting := none })
      s.linesHere (s.queueLines 0 0x40001000 8 true) && okAnd (s.queueTranslate 0 0x40001000 false).1 (fun t =>
        let u := (s.queueTranslate 0 0x40001000 false).2
        u.within t.pa && leafMt t.leaf == 0 && u.readPhysNat t.pa 8 == n.toNat)) = true := by
  decide +kernel

/-- A watched launch, and a launch of higher priority that its context holds back. -/
def watched (w : Word) : State := { live (at_ { id := 1 }) with launches := [{ launch0 with wdog := w }] }

def urgent : LaunchPkt := { goodLaunch with prio := 1, handle := 2 }

def held0 : State :=
  { watched 0 with
    queues := [(0, { qctl := 0xC0500000, current := some { current0 urgent.toPacket false with begun := false } })], refCount := 5000,
    objects := [{ object0 with handle := 2, images := [{ tag := 1, amend := false, words := [0xFFF80001] }] }],
    regs := { dmode := 0x10000, svprod := 1 } }

/-- A closure that R426 has frozen, with its area. -/
def frozen0 : State :=
  { at_ { id := 7 } with
    freezes := [freeze0 false true],
    saves := [(0x70000, ⟨0, [], Region.reset, [], [], [], true, true⟩)] }

/-- DispatcherEvents: a watchdog before and after its units. -/
theorem test_met_watchdog (w : Word) :
    (watched w).contexts.find? (fun c => c.id == (watched w).cur.id) = some (ctx unit) ∧
    (watched w).launchOf (ctx unit) = some { launch0 with wdog := w } ∧ (watched w).refCount = 0 ∧
    ((watched w).queue 0).events = [] ∧ (0 < (1 : Word).toNat * 1024 ∧ (0 : Word).toNat * 1024 ≤ 0) ∧
    (ctx unit).saved = false ∧ launch0.barked = false ∧ ((watched w).region 0).halted = false ∧ (watched w).inLentPage 0 = false ∧
    (∀ q, ((watched w).queue q).evtail = 0 ∧ ((watched w).queue q).evhead = 0) ∧ 0 < ((watched w).queue 0).ringSize :=
  ⟨rfl, rfl, rfl, rfl, by decide, rfl, rfl, rfl, rfl, fun _ => ⟨rfl, rfl⟩, show 0 < ({} : Queue).ringSize by decide⟩

/-- DispatcherEvents: a launch held by a context of lower priority, and a queue without one. -/
theorem test_met_preempt :
    someAnd (held0.heldLaunch 0) (fun l => l == urgent) = true ∧ held0.closureOf [0] = [0] ∧ held0.inFreeze [0] = false ∧
    [0].any held0.frozen = false ∧ held0.mayPreempt [0] 1 = true ∧ [0].length ≤ (held0.regs.svprod - held0.regs.svcons).toNat ∧
    ((at_ {}).heldLaunch 0).isSome = false := by
  refine ⟨?_, ?_, ?_, ?_, ?_, ?_, ?_⟩ <;> decide +kernel

/-- DispatcherEvents: a closure to be resumed, one that waits. -/
theorem test_met_preempt_resume :
    frozen0.freezes.find? (fun f => f.id == frozen0.cur.id && f.saved) = some (freeze0 false true) ∧
    frozen0.closureWanted (freeze0 false true) = false ∧
    (reg0 frozen0 (fun r => { r with halted := true })).canResume [(0, 0x70000)] = false ∧
    (match frozen0.resumeAreas 0 0 [(0, 0x70000)] with | .ended _ c => c == 0 | .wait _ => false) = true := by
  refine ⟨?_, ?_, ?_, ?_⟩ <;> decide +kernel

/-- FerryEvents: no last LAUNCH, one that did not allow it, and a hint whose launch may start. -/
theorem test_met_ferry :
    ((at_ {}).ferryOf 0).last = none ∧
    (∀ b : Bool, let s : State := { at_ {} with
        queues := [(0, { qctl := if b then 8 else 0 })], ferry := [(0, { stopped := true, hintStopped := true })] }
      (if (s.queue 0).qctl.getLsbD 3 then (s.ferryOf 0).hintStopped else (s.ferryOf 0).stopped) = true) ∧
    (({ at_ {} with ferry := [(0, { last := some launch0 })] } : State).ferryOf 0).last = some launch0 ∧ launch0.mayspec = false ∧
    (let l := { goodLaunch with spec := true }
     let m := { launch0 with mayspec := true }
     let s := { reg0 (at_ {}) (fun r => { r with residents := [{ tag := 1, addrs := [], used := 0 }] }) with
       queues := [(0, { qctl := 0xC0500008, hint := l.toPacket })], objects := [object0], ferry := [(0, { last := some m })] }
     (s.ferryOf 0).last = some m ∧ (s.ferryOf 0).spec = none ∧ (s.ferry.filter (fun e => e.2.spec.isSome)).length < 8 ∧
       someAnd (s.prediction 0 m).1 (fun p => p.2 == l) = true ∧
       (let u := (s.prediction 0 m).2
        u.launchTarget 0 l = .run object0 (some 0) ∧ u.residentIn 0 1 = true ∧ (u.region 0).swept = true ∧ u.frozen 0 = false ∧
          u.idleForFerry 0 = true ∧ u.wantedBy [0] = false ∧ u.ctxRoom [0] = true)) := by
  refine ⟨?_, ?_, ?_, ?_⟩ <;> decide +kernel

/-! ## The hypotheses of the statements are met: the platform, management, the step -/

def tolled (t : Tollhouse) (x : Site) : State := { at_ x with toll := t }

/-- Platform: the steps of a bring-up; a reset that is taken and one that is not; each kind of sample. -/
theorem test_met_boot :
    (∀ n, (at_ { index := n }).cur.index = n) ∧ (at_ {}).takesWrites = true ∧ (at_ { id := 1 }).toll.off = false ∧
    (tolled { boot := .training } {}).takesWrites = false ∧ (tolled { boot := .training } {}).toll.boot = .training ∧
    115 * 8 < (921 : BitVec 16).toInt ∧ (920 : BitVec 16).toInt ≤ 115 * 8 ∧
    2400000 * [(2400001 : Word)].length < ([(2400001 : Word)].map (fun w => w.toNat)).sum ∧
    ([(2280000 : Word)].map (fun w => w.toNat)).sum ≤ 2400000 * [(2280000 : Word)].length ∧
    (759 : BitVec 16).toInt < 95 * 8 ∧ 95 * 8 ≤ (760 : BitVec 16).toInt ∧ (760 : BitVec 16).toInt ≤ 100 * 8 ∧
    ({ at_ {} with agenda := [.event .stagedImageCheck { index := 1 }] } : State).flashing = true ∧ (at_ {}).flashing = false ∧
    (let q : MemReq := { id := 9, cluster := 64, station := 66, tag := 0, kind := .store, va := 0, aux := 7, stage := .away }
     ({ at_ { id := 1 } with reqs := [q] } : State).reqs = [q]) ∧
    (2279999 : Word).toNat < 2280000 ∧ (tolled { quiet := 99 } {}).toll.quiet = 99 ∧ (tolled { off := true } {}).toll.off = true := by
  refine ⟨fun n => rfl, ?_, ?_, ?_, ?_, ?_, ?_, ?_, ?_, ?_, ?_, ?_, ?_, ?_, rfl, ?_, ?_, ?_⟩ <;> decide +kernel

/-- Platform: RECOVERY with and without a check in progress, an image checked and one to be written, a cluster that may sleep. -/
theorem test_met_update :
    (tolled { boot := .recovery } { amount := some 160 }).toll.rcvstat = 0 ∧
    (tolled { boot := .recovery, rcvstat := 1 } {}).toll.rcvstat = 1 ∧
    (tolled { boot := .recovery, rcvstat := 2 } { index := 1, hasC := true }).cur.index = 1 ∧
    (tolled { boot := .recovery } { index := 2 }).toll.boot = .recovery ∧ (tolled { boot := .ready } { index := 2 }).toll.boot ≠ .recovery ∧
    ((at_ {}).region 0).delivery = none ∧ (at_ {}).frozen 0 = false ∧ ((at_ {}).region 0).swept = true ∧
    (∀ e ∈ ((at_ {}).region 0).ingress, e.2 = []) ∧ (at_ {}).ctxsOf 0 = [] ∧ (at_ {}).specsIn 0 = [] ∧
    (∃ k ∈ (live (at_ {})).ctxsOf 0, k.spec = false ∧ k.killed = false) := by
  refine ⟨?_, ?_, ?_, ?_, ?_, ?_, ?_, ?_, ?_, ?_, ?_, ⟨ctx unit, ?_, ?_⟩⟩ <;> decide +kernel

/-- A SETKEY payload that sets slot 0 with KEYSEQ n, signed through a slot. -/
def setkeyOf (n : Nat) (sigslot : Byte) : List Byte :=
  [0, 1] ++ neutralKey ++ bytesOfNat 4 n ++ [sigslot] ++ neutralKey ++ List.replicate 32 0

/-- Management: a power reading, a log entry and none, a quote, payloads at the bounds of STAGE, SETKEY unsigned, signed, badly signed
and out of sequence. -/
theorem test_met_management :
    (at_ {}).toll.off = false ∧ (at_ {}).toll.reading = none ∧ (at_ {}).toll.checking = false ∧
    (tolled { stage := 2 } {}).toll.checking = true ∧ (tolled { resetDue := true, answerTo := 9 } {}).toll.resetDue = true ∧
    (at_ {}).toll.resetDue = false ∧ (∃ ir : Byte, ir ≠ 2 ∧ ir ≠ 3) ∧
    (tolled { log := [{ time := 0, die := 0, unit := 0, kind := 0 }] } {}).toll.log[0]?.isSome = true ∧
    (at_ {}).toll.log[0]?.isSome = false ∧ (List.replicate 244 (0 : Byte)).length ≤ 244 ∧
    natOfBytes [0x10, 0xFF, 0xFF, 0] + 240 ≤ 2 ^ 24 ∧ 2 ^ 24 < natOfBytes [0x11, 0xFF, 0xFF, 0] + 240 ∧
    (setkeyOf 1 0xFF).length = 103 ∧ natOfBytes (((setkeyOf 1 0xFF).drop 0x22).take 4) = (0 : Word).toNat + 1 ∧
    (setkeyOf 1 0xFF).getD 0x26 0 = 0xFF ∧ ((setkeyOf 1 0xFF).getD 1 0).toNat = 1 ∧ ((setkeyOf 1 0xFF).getD 0 0).toNat ≤ 7 := by
  decide +kernel

/-- A point that stands for the neutral one. -/
def Neutral (p : EdPoint) : Prop := p.x = 0 ∧ p.t = 0 ∧ p.y = p.z

theorem neutral_add (p q : EdPoint) (hp : Neutral p) (hq : Neutral q) : Neutral (edAdd p q) := by
  obtain ⟨px, pt, py⟩ := hp
  obtain ⟨qx, qt, qy⟩ := hq
  simp [Neutral, edAdd, edSub, px, pt, py, qx, qt, qy]
  rw [← Nat.two_mul, Nat.mul_assoc 2 p.z q.z]

theorem neutral_mul : ∀ (fuel n : Nat) (p : EdPoint), Neutral p → Neutral (edMul fuel n p)
  | 0, _, _, _ => ⟨rfl, rfl, rfl⟩
  | fuel + 1, n, p, h => by
    have ih := neutral_mul fuel (n / 2) (edAdd p p) (neutral_add p p h h)
    simp only [edMul]
    split
    · exact ⟨rfl, rfl, rfl⟩
    · split
      · exact neutral_add _ _ ih h
      · exact ih

theorem neutral_verifies (m : List Byte) : edVerify neutralKey m (neutralKey ++ List.replicate 32 0) = true := by
  have hd : edDecode neutralKey = some edZero := by decide +kernel
  have ht : (neutralKey ++ List.replicate 32 0).take 32 = neutralKey := by decide
  have hs : edNat ((neutralKey ++ List.replicate 32 0).drop 32) = 0 := by decide
  simp only [edVerify, hd, ht, hs]
  have h := neutral_add edZero (edMul 256 (edNat (sha512 (neutralKey ++ neutralKey ++ m)) % edL) edZero) ⟨rfl, rfl, rfl⟩
    (neutral_mul _ _ _ ⟨rfl, rfl, rfl⟩)
  generalize edAdd edZero (edMul 256 (edNat (sha512 (neutralKey ++ neutralKey ++ m)) % edL) edZero) = r at h
  obtain ⟨h1, _, h3⟩ := h
  have h0 : edMul 256 0 edBase = edZero := rfl
  have e : edSame edZero r = true := by simp [edSame, edZero, h1, h3]
  rw [h0, e]
  decide

/-- Management: a SETKEY whose signature stands, and one that names an empty slot. -/
theorem test_met_key_signed :
    (tolled { keys := [(0, neutralKey)] } {}).toll.keySigned (setkeyOf 1 0) = true ∧
    (tolled { keys := [(0, neutralKey)] } {}).toll.keySigned (setkeyOf 1 1) = false := by
  refine ⟨?_, by decide +kernel⟩
  have hs : (setkeyOf 1 0).drop 0x27 = neutralKey ++ List.replicate 32 0 := by decide
  have h : (tolled { keys := [(0, neutralKey)] } {}).toll.keySigned (setkeyOf 1 0) = (decide (((setkeyOf 1 0).getD 0x26 0).toNat < 8)
    && edVerify neutralKey (setkeyMessage (setkeyOf 1 0)) ((setkeyOf 1 0).drop 0x27)) := rfl
  rw [h, hs, neutral_verifies]
  decide

/-- The firings of SuppressedFirings and FiringFrame: a station without order, a memory operation of no wave, one in a block. -/
theorem test_met_suppressed :
    (at_ { go := false }).cur.go = false ∧ (Instr.add rec0).record? = some (0x10, rec0) ∧ (Instr.ld rec0).record? = some (0x70, rec0) ∧
    movesTokens 0x10 = true ∧ ∃ t, exec (.add rec0) (at_ {}) = .next t :=
  ⟨rfl, rfl, rfl, by decide, ⟨_, rfl⟩⟩

/-- TrapEntryAndRelease: a live context, a discarded one and a speculation's, of a launch whose ring has room. -/
theorem test_met_trap (killed spec : Bool) :
    (let k := { ctx unit with killed := killed, spec := spec }
     let s := { at_ {} with contexts := [k], launches := [launch0] }
     s.ctxAt 0 (tagCtx 0) = some k ∧ s.launchOf k = some launch0 ∧ (s.queue launch0.queue).events = [] ∧ k.saved = false ∧
       ∀ d, (s.region d).brkHeld = []) :=
  ⟨by cases killed <;> cases spec <;> decide, rfl, rfl, rfl, fun _ => rfl⟩

theorem test_met_encode : (Instr.mma goodCtl).wf = true ∧ (encode (.mma goodCtl)).isSome = true := by decide

/-- StepRunsInstruction: an activity of each kind that is chosen. -/
theorem test_met_chosen (x : Site) (n : Nat) (b : List Byte) :
    ∀ a ∈ [Activity.event .tokenArrival x, .event .mseqStep x, .write n b, .manage n b, .scan 1, .board (.resetPin true), .packet n, .command n, .control n 0,
      .fire n n 0], ∃ u, ({ at_ {} with agenda := [a], picks := [0] } : State).tick.choose = some (a, u) := by
  intro a h
  simp only [List.mem_cons, List.not_mem_nil, or_false] at h
  obtain rfl | rfl | rfl | rfl | rfl | rfl | rfl | rfl | rfl | rfl := h <;> exact ⟨_, rfl⟩

/-- StepRunsInstruction: a register write behind a write to memory that is on its way to another device, and one alone. -/
theorem test_met_host_forwards :
    (let q : MemReq := { id := 9, cluster := 64, station := 66, tag := 0, kind := .store, va := 0, stage := .away }
     ({ at_ {} with reqs := [q] } : State).hostForwards = true ∧ (at_ {}).hostForwards = false) := by
  decide +kernel

/-- StepRunsInstruction: a step of an expansion that may go, alone in its element, and one whose result still waits. -/
theorem test_met_step_station :
    (let e : Expansion := { id := 3, station := 0x1280, template := 0, step := 4, tag := 0, next := 1 }
     let s := live (reg0 (at_ {}) (fun r => { r with expansions := [e] }))
     let t := live (reg0 (at_ {}) (fun r => { r with expansions := [e], blocked := [(0x1280, token0 20)] }))
     s.stepStation { id := 3 } = some 0x1280 ∧ s.readyAt 0 (elementOf 0x1280) = [] ∧ t.stepStation { id := 3 } = none) := by
  decide +kernel

/-- StepRunsInstruction: the word of a delivery, the head of an MO's queue, a packet in hand. -/
theorem test_met_fetch :
    someAnd (State.reset.place (.command 0xFFF80007)).tick.choose (fun p => p.1 == .command 0 &&
      someAnd (p.2.region 0).delivery (fun d => d.words == [0xFFF80007])) = true ∧
    someAnd (State.reset.place (.control 0x04000000)).tick.choose (fun p => p.1 == .control 0 0 &&
      ((p.2.mo 0 0).queue.map (fun t => t.word)) == [0x04000000] && (p.2.mo 0 0).run.isNone && p.2.runs 0 0) = true ∧
    someAnd (State.reset.place (.packet 0 0x10)).tick.choose (fun p => p.1 == .packet 0 &&
      someAnd (p.2.queue 0).current (fun k => k.bytes == 0x10)) = true := by
  refine ⟨?_, ?_, ?_⟩ <;> decide +kernel

/-- StepRunsInstruction: a firing that is ready alone in its element, of a PE and of an ingress node. -/
theorem test_met_fire :
    someAnd (State.reset.place (.record (rec0.toRaw 0x10))).tick.choose (fun p => p.1 == .fire 0 0 0 && p.2.canFire 0 0 0 &&
      p.2.readyAt 0 (elementOf 0) == [] && !isHin 0 && (decodeRecord (classAt 0) (p.2.raw 0 0)).toOption == some (.add rec0)) = true ∧
    someAnd (State.reset.place (.record { f0 := 0xB700, f4 := 0xC000, f5 := 0xCC00 })).tick.choose (fun p => p.1 == .fire 0 0x1910 0 && p.2.canFire 0 0x1910 0 &&
      p.2.readyAt 0 (elementOf 0x1910) == [] && isHin 0x1910 && (p.2.hinSite 0 0x1910).isSome
      && (decodeRecord (classAt 0x1910) (p.2.raw 0 0x1910)).toOption.isSome) = true := by
  refine ⟨?_, ?_⟩ <;> decide +kernel

/-- MemoryFormKept: the reset state, which a step leaves with the same memory. -/
theorem test_met_memory_form : Safety.memoryOk State.reset = true ∧ ∃ t, step State.reset = .next t := ⟨by decide, ⟨_, rfl⟩⟩

/-! ## The first instruction after reset, and worked values -/

/-- A control token that stands at the head of an MO's queue runs in the next step (R303). -/
theorem test_first_step :
    ([(0x04000000, 1), (0x08000000, 2)].all (fun e =>
      (match step (State.reset.withFetchWord 32 e.1) with | .next _ => true | _ => false)
        && (decodeTableWord 32 e.1).isSome)) = true := by decide +kernel

/-- RFC 8032, test 2 of section 7.1, which R116 and R451 name: the signature stands, that of another message does not. -/
theorem test_ed25519 :
    (let key := edBytes 32 0xc66f42af155cdc08c96c42ecf2c989cbc7e1b4da70ab7925a8943e8c317403d
     let sig := edBytes 64 0xcbb1216290db0ee2a30b4ae2e7b388c1df1d013368f456e99153ee4c15a08da69dbeb232276b38f3f5016547bb2a24025645f0b820e72b8cad4f0a909a092
     edVerify key [0x72] sig = true ∧ edVerify key [0x73] sig = false) := by
  refine ⟨?_, ?_⟩ <;> decide +kernel

/-- FIPS 180-4: the digest of "abc". -/
theorem test_sha512 : (sha512 [0x61, 0x62, 0x63]).take 8 = [0xdd, 0xaf, 0x35, 0xa1, 0x93, 0x61, 0x7a, 0xba] := by decide +kernel
end Sys2Proof.Tests
end

section
/-! PROOFS. The packets WAIT, WAITF, SIGNAL, LOAD, LOAD with PLACE and UNLOAD: one equation for each outcome of each packet, the
order of the loader's first checks, and what a reference given up leaves of the loaded objects. -/

namespace Sys2Proof.Machine

open Sys2Proof Sys2Proof.Spec

/-! ## Shared operations -/

/-- What came from a new home does not decide where an address lies. -/
@[simp] theorem State.within_useFar (s : State) (far : List Nat) (pa : Nat) : (s.useFar far).within pa = s.within pa := rfl

/-- A packet that completes with OK posts no event. -/
theorem completePacket_ok (s : State) (q : Nat) (e : EventRec) :
    s.completePacket q .ok e false
      = (s.updQueue q (fun k => { k with current := none, waiting := none, cseq := k.cseq + 1 })).dueOnce
          (.event .dispatchSelect {}) := by
  simp [State.completePacket]

@[simp] theorem completePacket_ok_mem (s : State) (q : Nat) (e : EventRec) :
    (s.completePacket q .ok e false).mem = s.mem := by
  simp [completePacket_ok]

@[simp] theorem completePacket_ok_object? (s : State) (q : Nat) (e : EventRec) (h : Word) :
    (s.completePacket q .ok e false).object? h = s.object? h := by
  simp [completePacket_ok, State.object?]

/-! ## The meaning of each packet -/

section Meaning

variable (s : State)

theorem exec_waitf (a v : Dword) : exec (.waitf a v) s = execWaitf a v s := rfl

theorem exec_signal (a v : Dword) : exec (.signal a v) s = execSignal a v s := rfl

theorem exec_load (a n r : Dword) : exec (.load a n r) s = execLoad a n r s := rfl

theorem exec_loadPlace (g : Half) (a n r : Dword) : exec (.loadPlace g a n r) s = execLoadPlace g a n r s := rfl

theorem exec_unload (h : Word) : exec (.unload h) s = execUnload h s := rfl

end Meaning

/-! ## WAIT (R400, R404) -/

section Wait

variable {s : State} {t : Byte} {n : Dword}

theorem exec_wait_reached (h : n.toNat ≤ (s.queue t.toNat).cseq.toNat) :
    exec (.wait t n) s = .next (s.completePacket s.cur.queue .ok { evtype := 2 } false) :=
  congrArg Host.Outcome.next (if_pos h)

theorem exec_wait_below (h : (s.queue t.toNat).cseq.toNat < n.toNat) :
    exec (.wait t n) s = .next (s.again s.cur.queue) :=
  congrArg Host.Outcome.next (if_neg (Nat.not_le.mpr h))

end Wait

/-! ## WAITF (R400, R439) -/

section Waitf

variable {s : State} {a v : Dword}

theorem exec_waitf_unaligned (h : a.toNat % 8 ≠ 0) :
    exec (.waitf a v) s = .next (s.failAddress s.cur.queue { va := a.toNat, kind := 0 }) :=
  congrArg Host.Outcome.next (if_pos h)

theorem exec_waitf_far (h : a.toNat % 8 = 0) (hf : s.linesHere (s.queueLines s.cur.queue a.toNat 8 true) = false) :
    exec (.waitf a v) s
      = .next ((s.askFar (s.queueLines s.cur.queue a.toNat 8 true)).again s.cur.queue) := by
  simp [exec_waitf, execWaitf, State.checkFlag, h, hf]

variable (h : a.toNat % 8 = 0) (hh : s.linesHere (s.queueLines s.cur.queue a.toNat 8 true) = true)
include h hh

theorem exec_waitf_fault {f : HostFault} {u : State} (ht : s.queueTranslate s.cur.queue a.toNat false = (.error f, u)) :
    exec (.waitf a v) s
      = .next ((u.useFar (s.queueLines s.cur.queue a.toNat 8 true)).failAddress s.cur.queue f) := by
  simp [exec_waitf, execWaitf, State.checkFlag, h, hh, ht]

variable {t : Translation} {u : State} (ht : s.queueTranslate s.cur.queue a.toNat false = (.ok t, u))
include ht

/-- A flag whose translation stands is refused, has reached its value, or is watched (log 51 gives the refusal). -/
theorem exec_waitf_here :
    exec (.waitf a v) s
      = .next (if u.within t.pa = false ∨ leafMt t.leaf ≠ 0 then
          (u.useFar (s.queueLines s.cur.queue a.toNat 8 true)).failAddress s.cur.queue { va := a.toNat, kind := 0 }
        else if v.toNat ≤ u.readPhysNat t.pa 8 then
          (u.useFar (s.queueLines s.cur.queue a.toNat 8 true)).completePacket s.cur.queue .ok { evtype := 2 } false
        else
          ((u.useFar (s.queueLines s.cur.queue a.toNat 8 true)).updQueue s.cur.queue (fun k => { k with
            waiting := some (t.pa / 128)
            current := k.current.map (fun (c : Current) => { c with begun := false }) })).dispatch) := by
  simp [exec_waitf, execWaitf, State.checkFlag, h, hh, ht]

end Waitf

/-! ## SIGNAL (R400, R404) -/

section Signal

variable {s : State} {a v : Dword}

theorem exec_signal_far (hf : s.linesHere (s.queueLines s.cur.queue a.toNat 8 false) = false) :
    exec (.signal a v) s
      = .next ((s.askFar (s.queueLines s.cur.queue a.toNat 8 false)).again s.cur.queue) := by
  simp [exec_signal, execSignal, hf]

variable (hh : s.linesHere (s.queueLines s.cur.queue a.toNat 8 false) = true)
include hh

theorem exec_signal_fault {f : HostFault} {u : State} (ht : s.queueTranslate s.cur.queue a.toNat true = (.error f, u)) :
    exec (.signal a v) s
      = .next ((u.useFar (s.queueLines s.cur.queue a.toNat 8 false)).failAddress s.cur.queue f) := by
  simp [exec_signal, execSignal, hh, ht]

/-- A store that this device performs itself, at a place that no recall holds back, completes its packet. -/
theorem exec_signal_stored {t : Translation} {u w : State}
    (ht : s.queueTranslate s.cur.queue a.toNat true = (.ok t, u)) (hp : ∀ d, u.physPlace t.pa ≠ .remote d)
    (hl : u.inLentPage t.pa = false) (hs : u.slabsOut (t.pa / 128) = false)
    (hw : State.queueWrite 2 u s.cur.queue a.toNat (bytesOfNat 8 v.toNat) = (.ok (), w)) :
    exec (.signal a v) s
      = .next ((w.useFar (s.queueLines s.cur.queue a.toNat 8 false)).completePacket s.cur.queue .ok
          { evtype := 2 } false) := by
  cases hd : u.physPlace t.pa with
  | remote d => exact absurd hd (hp d)
  | hbm | host | reserved => simp [exec_signal, execSignal, hh, ht, hd, hl, hs, hw]

end Signal

/-! ## The loader's first checks (R126, R127) -/

section LoadObject

variable {s : State} {b : List Byte}

theorem loadObject_unsigned (a : Dword) (h : s.signed b = false) : s.loadObject a b = (.signature, 0, s) := by
  simp [State.loadObject, h]

theorem loadObject_malformed (a : Dword) (h : s.signed b = true) (hf : s.formatOk b = false) :
    s.loadObject a b = (.format, 0, s) := by
  simp [State.loadObject, h, hf]

/-- An object that is loaded already gains a reference and keeps its handle (R127). -/
theorem loadObject_loaded {k : Section} {o : Obj} (h : s.signed b = true) (hf : s.formatOk b = true)
    (hk : signatureOf b = some k) (ho : s.objects = [o]) (hkey : o.key = objBytes b k.offset 32)
    (hsig : o.sig = objBytes b (k.offset + 32) 64) (hr : o.retiring = false) :
    s.loadObject o.obj b = (.ok, o.handle, { s with objects := [{ o with refs := o.refs + 1 }] }) := by
  have found : s.objects.find? (fun e => e.obj == o.obj && e.sig == objBytes b (k.offset + 32) 64
      && e.key == objBytes b k.offset 32 && !e.retiring) = some o := by
    simp [ho, hkey, hsig, hr]
  simp only [State.loadObject, h, hf, hk, Option.getD_some, found, Bool.not_true, Bool.false_eq_true, if_false]
  simp only [ho, List.map_cons, List.map_nil, if_true]

end LoadObject

/-! ## LOAD and LOAD with PLACE (R127, R407, R411) -/

section Load

variable {s : State} {a n r : Dword} {u : State} (hw : s.loadWaits s.cur.queue a n r = none)
include hw

theorem exec_load_fault {f : HostFault} (hp : s.loadPacket s.cur.queue a n r = (.error f, u)) :
    exec (.load a n r) s = .next (u.failAddress s.cur.queue f) := by
  simp [exec_load, execLoad, hw, hp]

theorem exec_load_status {st : LoadStatus} {x : Word} (hp : s.loadPacket s.cur.queue a n r = (.ok (st, x), u)) :
    exec (.load a n r) s = .next (if st = .ok then u.completePacket s.cur.queue .ok { evtype := 2 } false
      else u.completePacket s.cur.queue .load { evtype := 2, vala := BitVec.ofNat 32 st.code } false) := by
  simp [exec_load, execLoad, hw, hp]

end Load

/-- The placing delivery that a LOAD with PLACE leaves: the object's images from the first, to every cluster of the rectangle. -/
def placingJob (id q : Nat) (h : Word) (rect : Rect) : Job :=
  { id := id, queue := some q, handle := h, clusters := rect.clusters, image := 0, tag := 0, begun := false, launch := none,
    waiting := [], failed := none }

section LoadPlace

variable {s : State} {a n r : Dword} {g : Half} (hj : ∀ j ∈ s.jobs, j.queue ≠ some s.cur.queue)
include hj

theorem exec_loadPlace_illegal (hg : (Rect.ofHalf g).legal = false) :
    exec (.loadPlace g a n r) s = .next (s.completePacket s.cur.queue .rect { evtype := 2 } false) := by
  have idle : s.jobs.any (fun j => j.queue == some s.cur.queue) = false := by simpa using hj
  simp [exec_loadPlace, execLoadPlace, idle, hg]

theorem exec_loadPlace_loaded {x : Word} {u : State} (hg : (Rect.ofHalf g).legal = true)
    (hw : s.loadWaits s.cur.queue a n r = none) (hp : s.loadPacket s.cur.queue a n r = (.ok (.ok, x), u)) :
    exec (.loadPlace g a n r) s
      = .next ({ u with nextId := u.nextId + 1,
                        jobs := u.jobs ++ [placingJob u.nextId s.cur.queue x (Rect.ofHalf g)] }.dueOnce
          (.event .dispatchSelect {})) := by
  have idle : s.jobs.any (fun j => j.queue == some s.cur.queue) = false := by simpa using hj
  simp [exec_loadPlace, execLoadPlace, idle, hg, hw, hp, State.fresh, placingJob]

end LoadPlace

/-! ## UNLOAD (R420) -/

/-- A loaded object after one reference to an object of a handle has gone; `last` where it was the last one. -/
def Obj.unref (h : Word) (last : Bool) (k : Obj) : Obj :=
  if k.handle = h then { k with refs := k.refs - 1, retiring := last } else k

@[simp] theorem Obj.unref_handle (h : Word) (last : Bool) (k : Obj) : (k.unref h last).handle = k.handle := by
  unfold Obj.unref
  split <;> rfl

/-- The state after UNLOAD has taken one reference to a handle. -/
def State.unref (s : State) (h : Word) (last : Bool) : State :=
  { s with objects := s.objects.map (Obj.unref h last) }.freeObjects

@[simp] theorem State.unref_mem (s : State) (h : Word) (last : Bool) : (s.unref h last).mem = s.mem := rfl

/-- The first object of a handle, looked up among those that are not freed. -/
theorem State.unref_object? (s : State) (h : Word) (last : Bool) :
    (s.unref h last).object? h = if last && !s.objectHeld h then none else (s.object? h).map (Obj.unref h last) := by
  have kept : (fun k : Obj => decide ((!(k.retiring && !s.objectHeld k.handle)) = true ∧ (k.handle == h) = true))
      ∘ Obj.unref h last = fun k => !(last && !s.objectHeld h) && k.handle == h := by
    funext k
    by_cases hk : k.handle = h
    · subst hk; simp [Obj.unref]
    · have hb : (k.handle == h) = false := beq_eq_false_iff_ne.mpr hk
      simp only [Function.comp_apply, Obj.unref_handle, hb, Bool.false_eq_true, and_false, decide_false, Bool.and_false]
  change ((s.objects.map (Obj.unref h last)).filter (fun k => !(k.retiring && !s.objectHeld k.handle))).find?
    (fun k => k.handle == h) = _
  rw [List.find?_filter, List.find?_map, kept]
  cases last && !s.objectHeld h <;> simp [State.object?]

/-- An object that no speculation runs leaves every speculation as it is when it would retire. -/
theorem discardObject_of_no_spec {s : State} {h : Word} (hs : ∀ l ∈ s.launches, l.spec = false ∨ l.object ≠ h) :
    s.discardObject h = s := by
  unfold State.discardObject
  refine List.foldlRecOn s.launches _ (motive := fun t => t = s) rfl (fun t ht l hl => ?_)
  obtain hl | hl := hs l hl <;> simp [hl, ht]

theorem exec_unload_unknown {s : State} {h : Word} (ho : s.object? h = none) :
    exec (.unload h) s = .next (s.completePacket s.cur.queue .handle { evtype := 2 } false) := by
  simp [exec_unload, execUnload, ho]

section Unload

variable {s : State} {h : Word} {o : Obj} (ho : s.object? h = some o)
include ho

theorem exec_unload_refused (hr : h = 0 ∨ o.retiring = true) :
    exec (.unload h) s = .next (s.completePacket s.cur.queue .handle { evtype := 2 } false) := by
  simp only [exec_unload, execUnload, ho, if_pos hr]

variable (h0 : h ≠ 0) (hr : o.retiring = false)
include h0 hr

/-- UNLOAD takes one reference; where it is the last, speculations of the object go first. -/
theorem exec_unload_taken (hs : o.refs ≤ 1 → s.discardObject h = s) :
    exec (.unload h) s
      = .next ((s.unref h (decide (o.refs ≤ 1))).completePacket s.cur.queue .ok { evtype := 2 } false) := by
  have quiet : (if decide (o.refs ≤ 1) = true then s.discardObject h else s) = s := by
    split
    · next hl => exact hs (of_decide_eq_true hl)
    · rfl
  simp only [exec_unload, execUnload, ho, hr, h0, quiet]
  rfl

/-- The handle names what `Obj.unref` leaves of its object, unless the last reference has gone and nothing holds it. -/
theorem exec_unload_object (hs : o.refs ≤ 1 → s.discardObject h = s) :
    ∃ u : State, exec (.unload h) s = .next u ∧ u.mem = s.mem ∧
      u.object? h = if decide (o.refs ≤ 1) && !s.objectHeld h then none
        else some { o with refs := o.refs - 1, retiring := decide (o.refs ≤ 1) } := by
  have named : o.handle = h := by simpa using List.find?_some ho
  refine ⟨_, exec_unload_taken ho h0 hr hs, by simp, ?_⟩
  simp [State.unref_object?, ho, Obj.unref, named]

end Unload

/-! ## The statement -/

/-- Settles O46: every outcome by the equation of its packet. -/
theorem queuePackets : Obligations.QueuePackets := by
  unfold Obligations.QueuePackets
  intro s q fin
  refine ⟨fun t n => ⟨exec_wait_reached, fun h => ?_⟩, fun a v => ⟨exec_waitf_unaligned, ⟨exec_waitf_far, fun h hh => ?_⟩,
    exec_signal_far, fun hh => ⟨fun t u w ht hp hl hs hw => exec_signal_stored hh ht hp hl hs hw,
      fun f u ht => exec_signal_fault hh ht⟩⟩, fun a n r b => ?_, fun h => ?_⟩
  · exact ⟨_, exec_wait_below h, State.mem_dueOnce _ _, State.dueOnce_queues _ _, State.dueOnce_mem _ _⟩
  · refine ⟨fun t u ht => ⟨fun hx => ?_, fun hi hm hv => ?_, fun hi hm hv => ?_⟩, fun f u ht => exec_waitf_fault h hh ht⟩
    · rw [exec_waitf_here h hh ht, if_pos hx]; rfl
    · rw [exec_waitf_here h hh ht, if_neg (by simp [hi, hm]), if_pos hv]
    · rw [exec_waitf_here h hh ht, if_neg (by simp [hi, hm]), if_neg (Nat.not_le.mpr hv)]; rfl
  · refine ⟨fun f u hw hp => exec_load_fault hw hp, fun x u hw hp => ?_, fun st x u hw hne hp => ?_, loadObject_unsigned a,
      loadObject_malformed a, fun k o h hf hk ho ha hkey hsig hr => ha ▸ loadObject_loaded h hf hk ho hkey hsig hr,
      fun g hj => ⟨exec_loadPlace_illegal hj, fun x u hg hw hp => ?_⟩⟩
    · rw [exec_load_status hw hp, if_pos rfl]
    · rw [exec_load_status hw hp, if_neg hne]
    · exact ⟨_, exec_loadPlace_loaded hj hg hw hp, State.mem_dueOnce _ _, State.dueOnce_jobs _ _⟩
  · refine ⟨exec_unload_unknown, fun o ho hr => exec_unload_refused ho hr, fun o ho h0 hr => ⟨fun h2 => ?_, fun h1 hl hj => ?_,
      fun h1 held hs => ?_⟩⟩
    · obtain ⟨u, hu, hm, hx⟩ := exec_unload_object ho h0 hr (fun h1 => absurd h1 (by omega))
      exact ⟨u, hu, by simpa [Nat.not_le.mpr h2, hr] using hx, hm⟩
    · have free : s.objectHeld h = false := by simpa [State.objectHeld] using ⟨hl, hj⟩
      obtain ⟨u, hu, hm, hx⟩ := exec_unload_object ho h0 hr
        (fun _ => discardObject_of_no_spec (fun l hm => .inr (hl l hm)))
      exact ⟨u, hu, by simpa [h1, free] using hx, hm⟩
    · have holds : s.objectHeld h = true := by simpa [State.objectHeld] using held
      obtain ⟨u, hu, -, hx⟩ := exec_unload_object ho h0 hr
        (fun _ => discardObject_of_no_spec (fun l hm => .inl (hs l hm)))
      exact ⟨u, hu, by simpa [h1, holds] using hx⟩

end Sys2Proof.Machine
end
